-- ==== Sys2Proof/Word.lean ====
section
/-! DEFINITION. The word types of MBLINK (spec/00_scope.md R9: all values are unsigned, bit 0 is the least significant). -/

namespace Sys2Proof

/-- A byte of a buffer, an address, a unit id (R9). -/
abbrev Byte := BitVec 8

/-- A 16-bit value: a CRC, a transaction id, a header field (R9). -/
abbrev Half := BitVec 16

/-- A CSR, the operand `B`, the result data `RDATA` (R22, R81, R91). -/
abbrev Word := BitVec 32

/-- The 64-bit word of the command port (R80). -/
abbrev CommandWord := BitVec 64

end Sys2Proof
end

