-- ==== Sys2Proof/Syntax.lean ====
section
/-! DEFINITION. The commands of spec/30_encoding.md R83 (one constructor per row of spec/opcode_table.json), the
pseudo-commands of R94, the CSR names of 10_state.md R23, and the inputs a step may take (R48, R86). -/

namespace Sys2Proof

/-- A host command (R80, R83). Each operand has the width of its field: `A` a byte, `B` 32 bits, and for `MBAP_FORMAT`
`B[15:0]` (R82); so every term has an encoding, and what can be ill-formed is a command WORD (WellFormed.lean). -/
inductive Instr where
  /-- `NOP` (R220) -/
  | nop
  /-- `SOFT_RESET` (R221) -/
  | softReset
  /-- `OPB_CLEAR` (R222) -/
  | opbClear
  /-- `OPB_PUSH b` (R223) -/
  | opbPush (b : Byte)
  /-- `RES_READ i` (R224) -/
  | resRead (i : Word)
  /-- `CSR_READ n` (R225) -/
  | csrRead (n : Byte)
  /-- `CSR_WRITE n, v` (R226) -/
  | csrWrite (n : Byte) (v : Word)
  /-- `CRC_INIT` (R102) -/
  | crcInit
  /-- `CRC_BYTE b` (R103) -/
  | crcByte (b : Byte)
  /-- `CRC_BUF` (R104) -/
  | crcBuf
  /-- `CRC_READ` (R105) -/
  | crcRead
  /-- `RTU_ENCODE a` (R123) -/
  | rtuEncode (a : Byte)
  /-- `RTU_DECODE` (R124) -/
  | rtuDecode
  /-- `START_MASTER` (R141) -/
  | startMaster
  /-- `START_SLAVE u` (R142) -/
  | startSlave (u : Byte)
  /-- `RTU_LISTEN` (R144) -/
  | rtuListen
  /-- `RTU_SEND a` (R145) -/
  | rtuSend (a : Byte)
  /-- `RXF_READ i` (R146) -/
  | rxfRead (i : Word)
  /-- `MBAP_FORMAT u, t` (R193) -/
  | mbapFormat (u : Byte) (t : Half)
  /-- `MBAP_ENCODE u` (R194) -/
  | mbapEncode (u : Byte)
  /-- `MBAP_PARSE` (R195) -/
  | mbapParse
  /-- `MBAP_PUSH b` (R196) -/
  | mbapPush (b : Byte)
  /-- `MBAP_STREAM_CLEAR` (R197) -/
  | mbapStreamClear
  deriving DecidableEq, Repr

/-- A pseudo-command (R94: "No other pseudo-command exists"). -/
inductive Pseudo where
  /-- `LOADOPB b0, ..., bk-1` -/
  | loadOpb (bs : List Byte)
  /-- `CLR_EVT m` -/
  | clrEvt (m : Word)
  /-- `SET_TXN v` -/
  | setTxn (v : Word)
  /-- `SET_IE m` -/
  | setIe (m : Word)
  /-- `READRES n` -/
  | readRes (n : Nat)
  /-- `READRXF n` -/
  | readRxf (n : Nat)
  deriving DecidableEq, Repr

/-- The 22 control and status registers (R23), in the order of their numbers 0x00 to 0x15. -/
inductive Csr where
  | crc | mode | unitId | rxState | txState | rxStatus | tEof | tGap | tResp | silence | wait | accLen | rxfLen | rxAddr
  | txn | mrxLen | opbLen | resbLen | txfLen | evt | ie | cfg
  deriving DecidableEq, Repr

/-- What one step may take from outside (R48, R86): the host's command word, a byte from the line, or a tick. -/
inductive Input where
  /-- a command word on the command port (R80) -/
  | command (w : CommandWord)
  /-- `line_rx(b)` (R143) -/
  | lineRx (b : Byte)
  /-- `tick` (R150) -/
  | tick
  deriving DecidableEq, Repr

end Sys2Proof
end

