-- ==== Sys2Proof/WellFormed.lean ====
section
/-! DEFINITION. Which command words and pseudo-commands are well formed. The table is that of spec/30_encoding.md R83
(bits fixed by a command, and their values); Decode.lean is written from the fields of R81 instead, so the two can be compared. -/

namespace Sys2Proof

/-- One row of the opcode table (R83): `mask` has a 1 in every bit the command fixes, `value` the values of those bits. -/
structure Row where
  mnemonic : String
  value : CommandWord
  mask : CommandWord
  deriving DecidableEq, Repr

/-- The host interface commands (R83, opcodes 0x00 to 0x06). -/
def hostRows : List Row :=
  [ ⟨"NOP", 0x0000000000000000, 0xFFFFFFFFFFFFFFFF⟩
  , ⟨"SOFT_RESET", 0x0100000000000000, 0xFFFFFFFFFFFFFFFF⟩
  , ⟨"OPB_CLEAR", 0x0200000000000000, 0xFFFFFFFFFFFFFFFF⟩
  , ⟨"OPB_PUSH", 0x0300000000000000, 0xFF00FFFFFFFFFFFF⟩
  , ⟨"RES_READ", 0x0400000000000000, 0xFFFFFFFF00000000⟩
  , ⟨"CSR_READ", 0x0500000000000000, 0xFF00FFFFFFFFFFFF⟩
  , ⟨"CSR_WRITE", 0x0600000000000000, 0xFF00FFFF00000000⟩ ]

/-- The CRC unit commands (R83, opcodes 0x10 to 0x13). -/
def crcRows : List Row :=
  [ ⟨"CRC_INIT", 0x1000000000000000, 0xFFFFFFFFFFFFFFFF⟩
  , ⟨"CRC_BYTE", 0x1100000000000000, 0xFF00FFFFFFFFFFFF⟩
  , ⟨"CRC_BUF", 0x1200000000000000, 0xFFFFFFFFFFFFFFFF⟩
  , ⟨"CRC_READ", 0x1300000000000000, 0xFFFFFFFFFFFFFFFF⟩ ]

/-- The RTU framer and RTU link commands (R83, opcodes 0x20 to 0x34). -/
def rtuRows : List Row :=
  [ ⟨"RTU_ENCODE", 0x2000000000000000, 0xFF00FFFFFFFFFFFF⟩
  , ⟨"RTU_DECODE", 0x2100000000000000, 0xFFFFFFFFFFFFFFFF⟩
  , ⟨"START_MASTER", 0x3000000000000000, 0xFFFFFFFFFFFFFFFF⟩
  , ⟨"START_SLAVE", 0x3100000000000000, 0xFF00FFFFFFFFFFFF⟩
  , ⟨"RTU_LISTEN", 0x3200000000000000, 0xFFFFFFFFFFFFFFFF⟩
  , ⟨"RTU_SEND", 0x3300000000000000, 0xFF00FFFFFFFFFFFF⟩
  , ⟨"RXF_READ", 0x3400000000000000, 0xFFFFFFFF00000000⟩ ]

/-- The MBAP unit commands (R83, opcodes 0x40 to 0x44). -/
def mbapRows : List Row :=
  [ ⟨"MBAP_FORMAT", 0x4000000000000000, 0xFF00FFFFFFFF0000⟩
  , ⟨"MBAP_ENCODE", 0x4100000000000000, 0xFF00FFFFFFFFFFFF⟩
  , ⟨"MBAP_PARSE", 0x4200000000000000, 0xFFFFFFFFFFFFFFFF⟩
  , ⟨"MBAP_PUSH", 0x4300000000000000, 0xFF00FFFFFFFFFFFF⟩
  , ⟨"MBAP_STREAM_CLEAR", 0x4400000000000000, 0xFFFFFFFFFFFFFFFF⟩ ]

/-- The opcode table (R83). -/
def opcodeTable : List Row := hostRows ++ crcRows ++ rtuRows ++ mbapRows

/-- A word selects a row only if `w & mask = match` (R85). -/
def Row.selects (r : Row) (w : CommandWord) : Bool := w &&& r.mask == r.value

/-- The opcode of a row: bits 63 to 56 of its value (R81). -/
def Row.op (r : Row) : Byte := r.value.extractLsb' 56 8

/-- A legal opcode is one of the table's (R84). -/
def legalOpcode (op : Byte) : Bool := opcodeTable.any fun r => r.op == op

/-- A well-formed command word selects a row of the table (R84, R85). -/
def wellFormedWord (w : CommandWord) : Bool := opcodeTable.any fun r => r.selects w

/-- R94: `LOADOPB` takes at most 260 bytes; `READRES` and `READRXF` count indices that fit the 32-bit operand `B` (DEDUCED
from R81, log 13; safe, an index that does not fit has no encoding). -/
def Pseudo.wellFormed : Pseudo → Bool
  | .loadOpb bs => decide (bs.length ≤ 260)
  | .clrEvt _ => true
  | .setTxn _ => true
  | .setIe _ => true
  | .readRes n => decide (n ≤ 2 ^ 32)
  | .readRxf n => decide (n ≤ 2 ^ 32)

end Sys2Proof
end

