-- ==== Sys2Proof/Decode.lean ====
section
/-! DEFINITION. The decoder and the encoder of command words, written from the fields of spec/30_encoding.md R81 and the
opcode map R83, and the expansion of the pseudo-commands (R94). -/

namespace Sys2Proof

/-- Why a word is no command: R84 or R85. Both give status `InvalidValue` and change no state (Machine/Command.lean). -/
inductive DecodeError where
  /-- the opcode is not in the map (R84); safe, the spec gives the outcome -/
  | illegalOpcode (op : Byte)
  /-- a bit that the command fixes to 0 is 1 (R85); safe, the spec gives the outcome -/
  | reservedField (op : Byte)
  deriving DecidableEq, Repr

/-- Field `OP`, bits 63 to 56 (R81). -/
def opField (w : CommandWord) : Byte := w.extractLsb' 56 8

/-- Field `A`, bits 55 to 48 (R81). -/
def aField (w : CommandWord) : Byte := w.extractLsb' 48 8

/-- Field `Z`, bits 47 to 32, reserved (R81). -/
def zField (w : CommandWord) : Half := w.extractLsb' 32 16

/-- Field `B`, bits 31 to 0 (R81). -/
def bField (w : CommandWord) : Word := w.extractLsb' 0 32

/-- `B[15:0]`, the transaction id of `MBAP_FORMAT` (R82). -/
def txnOperand (b : Word) : Half := b.extractLsb' 0 16

/-- `B[31:16]`, reserved for `MBAP_FORMAT` (R82). -/
def txnReserved (b : Word) : Half := b.extractLsb' 16 16

/-- The reserved-field test (R85), made after the opcode is known to be legal (R92). -/
def withReservedZero (op : Byte) (zero : Bool) (i : Instr) : Except DecodeError Instr :=
  if zero then .ok i else .error (.reservedField op)

/-- A command that uses no field: `A`, `Z` and `B` must be 0 (R83). -/
def decodeNone (w : CommandWord) (i : Instr) : Except DecodeError Instr :=
  withReservedZero (opField w) (aField w == 0 && zField w == 0 && bField w == 0) i

/-- A command that uses `A` only: `Z` and `B` must be 0 (R83). -/
def decodeA (w : CommandWord) (i : Byte → Instr) : Except DecodeError Instr :=
  withReservedZero (opField w) (zField w == 0 && bField w == 0) (i (aField w))

/-- A command that uses `B` only: `A` and `Z` must be 0 (R83). -/
def decodeB (w : CommandWord) (i : Word → Instr) : Except DecodeError Instr :=
  withReservedZero (opField w) (aField w == 0 && zField w == 0) (i (bField w))

/-- `CSR_WRITE`: only `Z` must be 0 (R83). -/
def decodeAB (w : CommandWord) (i : Byte → Word → Instr) : Except DecodeError Instr :=
  withReservedZero (opField w) (zField w == 0) (i (aField w) (bField w))

/-- `MBAP_FORMAT`: `Z` and `B[31:16]` must be 0 (R82, R83). -/
def decodeATxn (w : CommandWord) (i : Byte → Half → Instr) : Except DecodeError Instr :=
  withReservedZero (opField w) (zField w == 0 && txnReserved (bField w) == 0) (i (aField w) (txnOperand (bField w)))

/-- The decoder, total on 64-bit words (R80, R83): first the opcode (R84), then the reserved fields (R85), as R92 orders. -/
def decode (w : CommandWord) : Except DecodeError Instr :=
  match (opField w).toNat with
  | 0x00 => decodeNone w .nop
  | 0x01 => decodeNone w .softReset
  | 0x02 => decodeNone w .opbClear
  | 0x03 => decodeA w .opbPush
  | 0x04 => decodeB w .resRead
  | 0x05 => decodeA w .csrRead
  | 0x06 => decodeAB w .csrWrite
  | 0x10 => decodeNone w .crcInit
  | 0x11 => decodeA w .crcByte
  | 0x12 => decodeNone w .crcBuf
  | 0x13 => decodeNone w .crcRead
  | 0x20 => decodeA w .rtuEncode
  | 0x21 => decodeNone w .rtuDecode
  | 0x30 => decodeNone w .startMaster
  | 0x31 => decodeA w .startSlave
  | 0x32 => decodeNone w .rtuListen
  | 0x33 => decodeA w .rtuSend
  | 0x34 => decodeB w .rxfRead
  | 0x40 => decodeATxn w .mbapFormat
  | 0x41 => decodeA w .mbapEncode
  | 0x42 => decodeNone w .mbapParse
  | 0x43 => decodeA w .mbapPush
  | 0x44 => decodeNone w .mbapStreamClear
  | _ => .error (.illegalOpcode (opField w))

/-- The word with the given `OP`, `A` and `B`, and `Z` = 0 (R81). -/
def commandWord (op a : Byte) (b : Word) : CommandWord := op ++ a ++ (0 : Half) ++ b

/-- The encoder (R81, R83): unused fields are 0. -/
def encode : Instr → CommandWord
  | .nop => commandWord 0x00 0 0
  | .softReset => commandWord 0x01 0 0
  | .opbClear => commandWord 0x02 0 0
  | .opbPush b => commandWord 0x03 b 0
  | .resRead i => commandWord 0x04 0 i
  | .csrRead n => commandWord 0x05 n 0
  | .csrWrite n v => commandWord 0x06 n v
  | .crcInit => commandWord 0x10 0 0
  | .crcByte b => commandWord 0x11 b 0
  | .crcBuf => commandWord 0x12 0 0
  | .crcRead => commandWord 0x13 0 0
  | .rtuEncode a => commandWord 0x20 a 0
  | .rtuDecode => commandWord 0x21 0 0
  | .startMaster => commandWord 0x30 0 0
  | .startSlave u => commandWord 0x31 u 0
  | .rtuListen => commandWord 0x32 0 0
  | .rtuSend a => commandWord 0x33 a 0
  | .rxfRead i => commandWord 0x34 0 i
  | .mbapFormat u t => commandWord 0x40 u (t.setWidth 32)
  | .mbapEncode u => commandWord 0x41 u 0
  | .mbapParse => commandWord 0x42 0 0
  | .mbapPush b => commandWord 0x43 b 0
  | .mbapStreamClear => commandWord 0x44 0 0

/-- The mnemonic of a command (R83). -/
def Instr.mnemonic : Instr → String
  | .nop => "NOP"
  | .softReset => "SOFT_RESET"
  | .opbClear => "OPB_CLEAR"
  | .opbPush _ => "OPB_PUSH"
  | .resRead _ => "RES_READ"
  | .csrRead _ => "CSR_READ"
  | .csrWrite _ _ => "CSR_WRITE"
  | .crcInit => "CRC_INIT"
  | .crcByte _ => "CRC_BYTE"
  | .crcBuf => "CRC_BUF"
  | .crcRead => "CRC_READ"
  | .rtuEncode _ => "RTU_ENCODE"
  | .rtuDecode => "RTU_DECODE"
  | .startMaster => "START_MASTER"
  | .startSlave _ => "START_SLAVE"
  | .rtuListen => "RTU_LISTEN"
  | .rtuSend _ => "RTU_SEND"
  | .rxfRead _ => "RXF_READ"
  | .mbapFormat _ _ => "MBAP_FORMAT"
  | .mbapEncode _ => "MBAP_ENCODE"
  | .mbapParse => "MBAP_PARSE"
  | .mbapPush _ => "MBAP_PUSH"
  | .mbapStreamClear => "MBAP_STREAM_CLEAR"

/-- An instruction's bits, as spec/opcode_table.json numbers them, as a word of the command port: the table's one word is
the command word itself, and every bit above `nbits` is 0. -/
def tableWord (nbits w : Nat) : CommandWord := BitVec.ofNat 64 (w % 2 ^ nbits)

/-- What `decode` makes of a row's word; none where it refuses. -/
def decodeTableWord (nbits w : Nat) : Option Instr :=
  match decode (tableWord nbits w) with
  | .ok i => some i
  | .error _ => none

/-- The expansion of a pseudo-command (R94); the CSR numbers of `EVT`, `TXN` and `IE` are those of 10_state.md R23. -/
def Pseudo.expand : Pseudo → List Instr
  | .loadOpb bs => .opbClear :: bs.map .opbPush
  | .clrEvt m => [.csrWrite 0x13 m]
  | .setTxn v => [.csrWrite 0x0E v]
  | .setIe m => [.csrWrite 0x14 m]
  | .readRes n => (List.range n).map fun k => .resRead (BitVec.ofNat 32 k)
  | .readRxf n => (List.range n).map fun k => .rxfRead (BitVec.ofNat 32 k)

end Sys2Proof
end

