-- ==== Sys2Proof/Config.lean ====
section
/-! DEFINITION. The parameters of spec/00_scope.md R7, which the spec leaves open (93_implementation_defined.md I1):
constants with no body, so no proof can see their values (log 4, log 5). -/

namespace Sys2Proof

/-- The reset parameters of R7, as one record: what `State.resetWith` (R51) is given. -/
structure Params where
  /-- `EOF_RESET`, reset value of `T_EOF`: 1 to 2^32-1. -/
  eofReset : Word
  /-- `GAP_RESET`, reset value of `T_GAP`: 0 to 2^32-1. -/
  gapReset : Word
  /-- `RESP_RESET`, reset value of `T_RESP`: 1 to 2^32-1. -/
  respReset : Word
  /-- `TXN_INIT`, the transaction-id counter after power-on reset. -/
  txnInit : Half
  /-- `BCAST_ACCEPT_RESET`, reset value of `CFG.BCAST`. -/
  bcastAcceptReset : Bool
  deriving DecidableEq, Repr

/-- The legal values of R7: `EOF_RESET` and `RESP_RESET` are not 0. -/
abbrev Params.Legal (p : Params) : Prop := p.eofReset ≠ 0 ∧ p.respReset ≠ 0

/-- Any 32-bit value; `Config.params` makes a legal `EOF_RESET` of it (log 4). -/
opaque Config.eofResetRaw : Word

/-- `GAP_RESET` (R7): any 32-bit value is legal (log 4). -/
opaque Config.gapReset : Word

/-- Any 32-bit value; `Config.params` makes a legal `RESP_RESET` of it (log 4). -/
opaque Config.respResetRaw : Word

/-- `TXN_INIT` (R7; log 4). -/
opaque Config.txnInit : Half

/-- `BCAST_ACCEPT_RESET` (R7; open question (2) of the source, "do not guess"; log 4). -/
opaque Config.bcastAcceptReset : Bool

/-- Any natural number; `Config.tickPeriod` is one more (log 5). -/
opaque Config.tickPeriodLessOne : Nat

/-- The range 1 to 2^32-1 of R7: 0 is no legal value, and each legal value comes from itself. -/
def Config.atLeastOne (w : Word) : Word := if w = 0 then 1 else w

/-- The parameters of this machine (R7). -/
def Config.params : Params :=
  { eofReset := Config.atLeastOne Config.eofResetRaw
    gapReset := Config.gapReset
    respReset := Config.atLeastOne Config.respResetRaw
    txnInit := Config.txnInit
    bcastAcceptReset := Config.bcastAcceptReset }

/-- `TICK_PERIOD` (R7): any positive duration, counted in a time unit the model does not fix (log 5).
No step reads it; it occurs only in the timing windows of Safety.lean (R284, R285). -/
def Config.tickPeriod : Nat := Config.tickPeriodLessOne + 1

end Sys2Proof
end

