-- ==== Sys2Proof/Machine/State.lean ====
section
/-! DEFINITION. The state of MBLINK (spec/10_state.md R20 to R51, 20_memory.md R60 to R67), its reset value (R51), and the
reasons a step can stop. -/

namespace Sys2Proof.Machine

/-- `MODE.ROLE` (R25): the value 3 is never held. -/
inductive Role where
  | unset | master | slave
  deriving DecidableEq, Repr

/-- `RX_STATE.STATE` (R27): the value 3 is never held. -/
inductive RxState where
  | idle | listen | await
  deriving DecidableEq, Repr

/-- The status codes (60_exceptions.md R250). Codes 6 to 12 are kinds of the source that no step of this block produces;
13 and 14 are reserved and have no constructor. -/
inductive Status where
  | ok | tooShortData | invalidValue | invalidData | invalidDataLength | noResponse
  | invalidFunction | invalidResponse | exceptionResponse | invalidRequest | missingReqHandler | ioError | serialError
  | none
  deriving DecidableEq, Repr

/-- The five event sources, by their bits of `EVT` (R43, R256). -/
inductive Event where
  | rxFrame | rxErr | noResp | txDone | rxDrop
  deriving DecidableEq, Repr

/-- The six byte buffers (R47, R60). -/
inductive Buffer where
  | opb | resb | acc | rxf | txf | mrx
  deriving DecidableEq, Repr

/-- What a command returns on the command port in its step (R91). -/
structure Response where
  status : Status
  rdata : Word
  deriving DecidableEq, Repr

/-- The state. Each buffer is the list of its valid bytes, index 0 first, so its length CSR is the list's length (R67;
log 6). `inputs`, `resp` and `lineTx` stand for the block's ports (R48) and are the model's own (log 1, log 2). -/
structure State where
  /-- `CRC.VALUE` (R24) -/
  crc : Half
  /-- `MODE.ROLE` (R25) -/
  role : Role
  /-- `UNIT_ID.ID` (R26) -/
  unitId : Byte
  /-- `RX_STATE.STATE` (R27) -/
  rxState : RxState
  /-- `TX_STATE.PENDING` (R28) -/
  pending : Bool
  /-- `TX_STATE.ARM_AWAIT` (R28) -/
  armAwait : Bool
  /-- `RX_STATUS.CODE` (R29) -/
  rxStatus : Status
  /-- `T_EOF.TICKS` (R30) -/
  tEof : Word
  /-- `T_GAP.TICKS` (R31) -/
  tGap : Word
  /-- `T_RESP.TICKS` (R32) -/
  tResp : Word
  /-- `SILENCE.TICKS` (R33) -/
  silence : Word
  /-- `WAIT.TICKS` (R34) -/
  wait : Word
  /-- `ACC` with `ACC_LEN.LEN` (R63, R35) -/
  acc : List Byte
  /-- `ACC_LEN.OVF` (R35) -/
  ovf : Bool
  /-- `RXF` with `RXF_LEN.LEN` (R64, R36) -/
  rxf : List Byte
  /-- `RX_ADDR.ADDR` (R37) -/
  rxAddr : Byte
  /-- `TXF` with `TXF_LEN.LEN` (R65, R42) -/
  txf : List Byte
  /-- `TXN.VALUE` (R38, R198) -/
  txn : Half
  /-- `MRX` with `MRX_LEN.LEN` (R66, R39) -/
  mrx : List Byte
  /-- `OPB` with `OPB_LEN.LEN` (R61, R40) -/
  opb : List Byte
  /-- `RESB` with `RESB_LEN.LEN` (R62, R41) -/
  resb : List Byte
  /-- `EVT[4:0]` (R43) -/
  evt : BitVec 5
  /-- `IE[4:0]` (R44) -/
  ie : BitVec 5
  /-- `CFG.BCAST` (R45) -/
  bcast : Bool
  /-- the inputs still to be taken, the next one first (log 1) -/
  inputs : List Input
  /-- what the command port returned for the most recent command, none before any (log 2) -/
  resp : Option Response
  /-- every frame put on the line since power-on, oldest first (log 2) -/
  lineTx : List (List Byte)
  deriving DecidableEq, Repr

/-- Why a step stops with a fault: it never does. "every byte sequence on every input has a defined outcome" (R252), and "no
step is `stuck` or `fault`" (93_implementation_defined.md I17); so the type has no constructor, nobody raises one, and that
is safe (log 10). -/
inductive Fault where
  deriving DecidableEq, Repr

/-- Why an instruction has no meaning in the model. -/
inductive Refusal where
  /-- Raised by an arm of `exec` whose instruction is not modelled; safe, the model stops where the hardware goes on. No arm
  of Dispatch.lean raises it. -/
  | notModelled (mnemonic : String)
  deriving DecidableEq, Repr

/-- The state after power-on reset (R51, R280), for given values of the reset parameters (R7). The port fields start with
nothing on any port (log 2, log 3). -/
def State.resetWith (p : Params) : State :=
  { crc := 0xFFFF
    role := .unset
    unitId := 0
    rxState := .idle
    pending := false
    armAwait := false
    rxStatus := .none
    tEof := p.eofReset
    tGap := p.gapReset
    tResp := p.respReset
    silence := 0
    wait := 0
    acc := []
    ovf := false
    rxf := []
    rxAddr := 0
    txf := []
    txn := p.txnInit
    mrx := []
    opb := []
    resb := []
    evt := 0
    ie := 0
    bcast := p.bcastAcceptReset
    inputs := []
    resp := none
    lineTx := [] }

/-- The machine right after power-on reset (R51, R280), with this machine's parameters (log 4). -/
def State.reset : State := State.resetWith Config.params

/-- A meaning's answer. -/
abbrev Result := Host.Outcome State Fault Refusal

end Sys2Proof.Machine
end

