-- ==== Sys2Proof/Machine/Flags.lean ====
section
/-! DEFINITION. The event bits and the interrupt line (spec/60_exceptions.md R256, R257; 10_state.md R43, R44), and the
number of each status code (R250). The block has no other flags or condition codes (R49). -/

namespace Sys2Proof.Machine

/-- The bit of an event in `EVT` and of its enable in `IE` (R43, R44). -/
def eventBit : Event → Nat
  | .rxFrame => 0
  | .rxErr => 1
  | .noResp => 2
  | .txDone => 3
  | .rxDrop => 4

/-- Whether an event's bit is set in a value of `EVT` or `IE`. -/
def hasEvent (e : Event) (bits : BitVec 5) : Bool := bits.getLsbD (eventBit e)

/-- The five bits with only this event's bit set. -/
def eventMask (e : Event) : BitVec 5 := 1#5 <<< eventBit e

/-- `signal EVT.X` (R10, R256): a bit that is already set stays set. -/
def signal (e : Event) (s : State) : State := { s with evt := s.evt ||| eventMask e }

/-- A write of `v` to `EVT` clears the bits where `v` has a 1 (R43, R226). -/
def clearEvents (v : BitVec 5) (s : State) : State := { s with evt := s.evt &&& ~~~ v }

/-- The level of the output `irq` (R257): 1 exactly when `(EVT & IE) != 0`. -/
def irq (s : State) : Bool := s.evt &&& s.ie != 0

/-- The number of a status code (R250). -/
def statusCode : Status → BitVec 4
  | .ok => 0
  | .tooShortData => 1
  | .invalidValue => 2
  | .invalidData => 3
  | .invalidDataLength => 4
  | .noResponse => 5
  | .invalidFunction => 6
  | .invalidResponse => 7
  | .exceptionResponse => 8
  | .invalidRequest => 9
  | .missingReqHandler => 10
  | .ioError => 11
  | .serialError => 12
  | .none => 15

end Sys2Proof.Machine
end

