-- ==== Sys2Proof/Machine/Ops.lean ====
section
/-! DEFINITION. The shared operations over buffers and registers (spec/00_scope.md R9, R10; 20_memory.md R60 to R71): bit
fields, counters, buffer access, the two ways a command ends, and the reset of R221. There is no exception to take and none
to return from (60_exceptions.md R258, R259): a failing command ends by `raise`. -/

namespace Sys2Proof.Machine

/-- `lo8(v)` = v[7:0] (R9). -/
def lo8 (v : Half) : Byte := v.extractLsb' 0 8

/-- `hi8(v)` = v[15:8] (R9). -/
def hi8 (v : Half) : Byte := v.extractLsb' 8 8

/-- `be16(hi, lo)` = hi·256 + lo (R9, R68, R71). -/
def be16 (hi lo : Byte) : Half := hi ++ lo

/-- `sat_inc_32(v)` (R9): v+1 if v < 2^32-1, else v. -/
def satInc32 (v : Word) : Word := if v < BitVec.allOnes 32 then v + 1 else v

/-- The valid bytes of a buffer (R60 to R66). -/
def bufferBytes (b : Buffer) (s : State) : List Byte :=
  match b with
  | .opb => s.opb
  | .resb => s.resb
  | .acc => s.acc
  | .rxf => s.rxf
  | .txf => s.txf
  | .mrx => s.mrx

/-- The capacity of a buffer in bytes (R8). -/
def bufferCapacity : Buffer → Nat
  | .opb => 260
  | .resb => 260
  | .acc => 256
  | .rxf => 253
  | .txf => 256
  | .mrx => 260

/-- `MemRead(Buf, i, 1)` (R10): the byte at index `i`; none at or beyond the length, where the byte is unspecified (R67). -/
def readByte (b : Buffer) (i : Nat) (s : State) : Option Byte := (bufferBytes b s)[i]?

/-- The buffers' form: no buffer holds more bytes than its capacity (R8). The list of the valid bytes is the one
representation of a buffer, so equal buffers are equal data. -/
def Memory.wf (s : State) : Bool :=
  decide (s.opb.length ≤ 260) && decide (s.resb.length ≤ 260) && decide (s.acc.length ≤ 256) &&
    decide (s.rxf.length ≤ 253) && decide (s.txf.length ≤ 256) && decide (s.mrx.length ≤ 260)

/-- A result-producing command writes `RESB` whole (R62). -/
def setResult (bytes : List Byte) (s : State) : State := { s with resb := bytes }

/-- The command port's output of this step (R91). -/
def respond (st : Status) (d : Word) (s : State) : State := { s with resp := some ⟨st, d⟩ }

/-- `raise E` = `return (E, 0)` (R10, R252): nothing else is written. -/
def raise (st : Status) (s : State) : Result := .next (respond st 0 s)

/-- `return (OK, d)` (R10). -/
def done (d : Word) (s : State) : Result := .next (respond .ok d s)

/-- The state `SOFT_RESET` leaves (R221, R281): every state element at its value in R51, but `TXN.VALUE` kept. The port
fields are no state elements of R51 and are kept too (log 8). -/
def softReset (s : State) : State :=
  { State.reset with txn := s.txn, inputs := s.inputs, resp := s.resp, lineTx := s.lineTx }

/-- A PDU is 1 to 253 bytes (R6). -/
def legalPdu (p : List Byte) : Bool := decide (1 ≤ p.length) && decide (p.length ≤ 253)

end Sys2Proof.Machine
end

