-- ==== Sys2Proof/Machine/Operands.lean ====
section
/-! DEFINITION. The operand forms (spec/30_encoding.md R82): the byte string `OPB`, the PDU in `OPB`, a buffer index, and a
CSR number with the CSR's value and the effect of writing it (10_state.md R22 to R45; 44_host_interface.md R225, R226). -/

namespace Sys2Proof.Machine

/-- The byte-string operand `OPB[0..OPB_LEN)` (R61). -/
def operandBytes (s : State) : List Byte := s.opb

/-- The PDU operand: `OPB`, if its length is 1 to 253 (R123, R145, R193, R194). -/
def operandPdu (s : State) : Option (List Byte) :=
  if legalPdu (operandBytes s) then some (operandBytes s) else none

/-- An index operand `B`, unsigned, never scaled (R82). -/
def operandIndex (b : Word) : Nat := b.toNat

/-- Which CSR a number names; none for the unassigned numbers 0x16 to 0xFF (R23). -/
def csrOfNumber (n : Byte) : Option Csr :=
  match n.toNat with
  | 0x00 => some .crc
  | 0x01 => some .mode
  | 0x02 => some .unitId
  | 0x03 => some .rxState
  | 0x04 => some .txState
  | 0x05 => some .rxStatus
  | 0x06 => some .tEof
  | 0x07 => some .tGap
  | 0x08 => some .tResp
  | 0x09 => some .silence
  | 0x0A => some .wait
  | 0x0B => some .accLen
  | 0x0C => some .rxfLen
  | 0x0D => some .rxAddr
  | 0x0E => some .txn
  | 0x0F => some .mrxLen
  | 0x10 => some .opbLen
  | 0x11 => some .resbLen
  | 0x12 => some .txfLen
  | 0x13 => some .evt
  | 0x14 => some .ie
  | 0x15 => some .cfg
  | _ => none

/-- The number of a CSR (R23). -/
def csrNumber : Csr → Byte
  | .crc => 0x00
  | .mode => 0x01
  | .unitId => 0x02
  | .rxState => 0x03
  | .txState => 0x04
  | .rxStatus => 0x05
  | .tEof => 0x06
  | .tGap => 0x07
  | .tResp => 0x08
  | .silence => 0x09
  | .wait => 0x0A
  | .accLen => 0x0B
  | .rxfLen => 0x0C
  | .rxAddr => 0x0D
  | .txn => 0x0E
  | .mrxLen => 0x0F
  | .opbLen => 0x10
  | .resbLen => 0x11
  | .txfLen => 0x12
  | .evt => 0x13
  | .ie => 0x14
  | .cfg => 0x15

/-- `MODE.ROLE` as a number (R25). -/
def roleCode : Role → BitVec 2
  | .unset => 0
  | .master => 1
  | .slave => 2

/-- `RX_STATE.STATE` as a number (R27). -/
def rxStateCode : RxState → BitVec 2
  | .idle => 0
  | .listen => 1
  | .await => 2

/-- A one-bit field at bit `k` of a CSR. -/
def bitAt (k : Nat) (b : Bool) : Word := if b then 1#32 <<< k else 0

/-- A length field of `width` bits from bit 0 (R35, R36, R39 to R42); the reserved bits above it read 0 (log 12). -/
def lengthField (width : Nat) (bytes : List Byte) : Word := (BitVec.ofNat width bytes.length).setWidth 32

/-- The value `CSR_READ` returns (R225), each layout as its rule of 10_state.md gives it, reserved bits 0 (R22). -/
def csrValue (r : Csr) (s : State) : Word :=
  match r with
  | .crc => s.crc.setWidth 32
  | .mode => (roleCode s.role).setWidth 32
  | .unitId => s.unitId.setWidth 32
  | .rxState => (rxStateCode s.rxState).setWidth 32
  | .txState => bitAt 0 s.pending ||| bitAt 1 s.armAwait
  | .rxStatus => (statusCode s.rxStatus).setWidth 32
  | .tEof => s.tEof
  | .tGap => s.tGap
  | .tResp => s.tResp
  | .silence => s.silence
  | .wait => s.wait
  | .accLen => lengthField 9 s.acc ||| bitAt 15 s.ovf
  | .rxfLen => lengthField 8 s.rxf
  | .rxAddr => s.rxAddr.setWidth 32
  | .txn => s.txn.setWidth 32
  | .mrxLen => lengthField 9 s.mrx
  | .opbLen => lengthField 9 s.opb
  | .resbLen => lengthField 9 s.resb
  | .txfLen => lengthField 9 s.txf
  | .evt => s.evt.setWidth 32
  | .ie => s.ie.setWidth 32
  | .cfg => bitAt 0 s.bcast

/-- WARL of `T_EOF` and `T_RESP` (R30, R32): a write of 0 stores 1. -/
def warlAtLeastOne (v : Word) : Word := if v = 0 then 1 else v

/-- `B[4:0]` (R226). -/
def eventOperand (v : Word) : BitVec 5 := v.extractLsb' 0 5

/-- `B[15:0]` of a write to `TXN` (R226). -/
def txnWriteOperand (v : Word) : Half := v.extractLsb' 0 16

/-- The effect of `CSR_WRITE` on an assigned CSR (R226); none for the RO CSRs, whose write fails (R22). -/
def csrStore (r : Csr) (v : Word) (s : State) : Option State :=
  match r with
  | .tEof => some { s with tEof := warlAtLeastOne v }
  | .tGap => some { s with tGap := v }
  | .tResp => some { s with tResp := warlAtLeastOne v }
  | .txn => some { s with txn := txnWriteOperand v }
  | .evt => some (clearEvents (eventOperand v) s)
  | .ie => some { s with ie := eventOperand v }
  | .cfg => some { s with bcast := v.getLsbD 0 }
  | .crc => none
  | .mode => none
  | .unitId => none
  | .rxState => none
  | .txState => none
  | .rxStatus => none
  | .silence => none
  | .wait => none
  | .accLen => none
  | .rxfLen => none
  | .rxAddr => none
  | .mrxLen => none
  | .opbLen => none
  | .resbLen => none
  | .txfLen => none

end Sys2Proof.Machine
end

