-- ==== Sys2Proof/Machine/HostInterface.lean ====
section
/-! DEFINITION. The host interface commands (spec/44_host_interface.md R220 to R226). -/

namespace Sys2Proof.Machine

/-- `NOP` (R220). -/
def execNop (s : State) : Result := done 0 s

/-- `SOFT_RESET` (R221). -/
def execSoftReset (s : State) : Result := done 0 (softReset s)

/-- `OPB_CLEAR` (R222). -/
def execOpbClear (s : State) : Result := done 0 { s with opb := [] }

/-- `OPB_PUSH b` (R223): the new length is returned. A buffer of 260 bytes is full (log 11). -/
def execOpbPush (b : Byte) (s : State) : Result :=
  if 260 ≤ s.opb.length then raise .invalidValue s
  else done (BitVec.ofNat 32 (s.opb.length + 1)) { s with opb := s.opb ++ [b] }

/-- `RES_READ i` (R224). -/
def execResRead (i : Word) (s : State) : Result :=
  match readByte .resb (operandIndex i) s with
  | none => raise .invalidValue s
  | some b => done (b.setWidth 32) s

/-- `CSR_READ n` (R225). -/
def execCsrRead (n : Byte) (s : State) : Result :=
  match csrOfNumber n with
  | none => raise .invalidValue s
  | some r => done (csrValue r s) s

/-- `CSR_WRITE n, v` (R226). -/
def execCsrWrite (n : Byte) (v : Word) (s : State) : Result :=
  match (csrOfNumber n).bind fun r => csrStore r v s with
  | none => raise .invalidValue s
  | some t => done 0 t

end Sys2Proof.Machine
end

