-- ==== Sys2Proof/Machine/Mbap.lean ====
section
/-! DEFINITION. The MBAP framing functions and the MBAP unit's commands (spec/43_mbap.md R190 to R200). -/

namespace Sys2Proof.Machine

/-- What `MbapParse` returns (R192). -/
inductive MbapResult where
  | tooShort
  | err (e : Status)
  | frame (txn : Half) (unit : Byte) (pdu : List Byte)
  deriving DecidableEq, Repr

/-- `MbapFormat(txn, unit, pdu)` (R190, R191): the `length` field is 1 + len(pdu); fields big-endian (R68). -/
def mbapFormat (txn : Half) (unit : Byte) (pdu : List Byte) : List Byte :=
  let len : Half := BitVec.ofNat 16 (1 + pdu.length)
  [hi8 txn, lo8 txn, 0, 0, hi8 len, lo8 len, unit] ++ pdu

/-- `MbapParse(buf)` (R192), its checks in the order of R254. Any transaction id is accepted (R200). -/
def mbapParse (buf : List Byte) : MbapResult :=
  match buf with
  | t1 :: t0 :: p1 :: p0 :: l1 :: l0 :: unit :: pdu =>
    let len := (be16 l1 l0).toNat
    if be16 p1 p0 ≠ 0 then .err .invalidData
    else if len < 2 ∨ 254 < len then .err .invalidDataLength
    else if buf.length < 6 + len then .tooShort
    else if 6 + len < buf.length then .err .invalidDataLength
    else .frame (be16 t1 t0) unit pdu
  | _ => .tooShort

/-- The result data of a parsed frame (R195): bits 31 to 16 the transaction id, 15 to 8 zero, 7 to 0 the unit id. -/
def frameData (txn : Half) (unit : Byte) : Word := txn ++ (0 : Byte) ++ unit

/-- `MBAP_FORMAT u, t` (R193): the frame's length is returned. -/
def execMbapFormat (u : Byte) (t : Half) (s : State) : Result :=
  match operandPdu s with
  | none => raise .invalidValue s
  | some pdu => done (BitVec.ofNat 32 (mbapFormat t u pdu).length) (setResult (mbapFormat t u pdu) s)

/-- `MBAP_ENCODE u` (R194, R198): the frame takes the counter's value before the increment, which is returned. -/
def execMbapEncode (u : Byte) (s : State) : Result :=
  match operandPdu s with
  | none => raise .invalidValue s
  | some pdu => done (s.txn.setWidth 32) (setResult (mbapFormat s.txn u pdu) { s with txn := s.txn + 1 })

/-- `MBAP_PARSE` (R195). -/
def execMbapParse (s : State) : Result :=
  match mbapParse (operandBytes s) with
  | .tooShort => .next (respond .tooShortData 0 s)
  | .err e => raise e s
  | .frame t u pdu => done (frameData t u) (setResult pdu s)

/-- `MBAP_PUSH b` (R196): the stream buffer is emptied at a frame and at an error (R252). A buffer of 260 bytes is full,
which no run reaches (log 11). -/
def execMbapPush (b : Byte) (s : State) : Result :=
  if 260 ≤ s.mrx.length then raise .invalidValue s
  else
    match mbapParse (s.mrx ++ [b]) with
    | .tooShort => .next (respond .tooShortData 0 { s with mrx := s.mrx ++ [b] })
    | .err e => raise e { s with mrx := [] }
    | .frame t u pdu => done (frameData t u) (setResult pdu { s with mrx := [] })

/-- `MBAP_STREAM_CLEAR` (R197). -/
def execMbapStreamClear (s : State) : Result := done 0 { s with mrx := [] }

end Sys2Proof.Machine
end

