-- ==== Sys2Proof/Machine/Crc.lean ====
section
/-! DEFINITION. The CRC function and the CRC unit's commands (spec/40_crc.md R100 to R105; 00_scope.md R11). -/

namespace Sys2Proof.Machine

/-- One turn of the loop of R100: the bit shifted out decides. -/
def crcShift (c : Half) : Half := if c.getLsbD 0 then (c >>> 1) ^^^ 0xA001#16 else c >>> 1

/-- `n` turns of the loop of R100. -/
def crcShifts : Nat → Half → Half
  | 0, c => c
  | n + 1, c => crcShifts n (crcShift c)

/-- `CrcStep(c, b)` (R100). -/
def crcStep (c : Half) (b : Byte) : Half := crcShifts 8 (c ^^^ b.setWidth 16)

/-- `fold(CrcStep, c, s)` (R9). -/
def crcFold (c : Half) (bytes : List Byte) : Half := bytes.foldl crcStep c

/-- `Crc16(s)` (R11): the fold from 0xFFFF; no final xor. -/
def crc16 (bytes : List Byte) : Half := crcFold 0xFFFF bytes

/-- The CRC bytes as they go on the wire, low byte first (R69). -/
def crcBytes (c : Half) : List Byte := [lo8 c, hi8 c]

/-- `CRC_INIT` (R102). -/
def execCrcInit (s : State) : Result := done 0 { s with crc := 0xFFFF }

/-- `CRC_BYTE b` (R103): the new value is returned. -/
def execCrcByte (b : Byte) (s : State) : Result :=
  let c := crcStep s.crc b
  done (c.setWidth 32) { s with crc := c }

/-- `CRC_BUF` (R104). -/
def execCrcBuf (s : State) : Result :=
  let c := crcFold s.crc (operandBytes s)
  done (c.setWidth 32) { s with crc := c }

/-- `CRC_READ` (R105). -/
def execCrcRead (s : State) : Result := done (s.crc.setWidth 32) s

end Sys2Proof.Machine
end

