-- ==== Sys2Proof/Machine/RtuFramer.lean ====
section
/-! DEFINITION. The RTU framing functions and the framer's commands (spec/41_rtu_framer.md R120 to R124). -/

namespace Sys2Proof.Machine

/-- What `RtuDecode` returns (R122). -/
inductive RtuResult where
  | ok (addr : Byte) (pdu : List Byte)
  | err (e : Status)
  deriving DecidableEq, Repr

/-- `RtuEncode(addr, pdu)` (R121). -/
def rtuEncode (addr : Byte) (pdu : List Byte) : List Byte :=
  (addr :: pdu) ++ crcBytes (crc16 (addr :: pdu))

/-- `RtuDecode(f)` (R122): the length first (R254), then the CRC over all but the last two bytes. -/
def rtuDecode (f : List Byte) : RtuResult :=
  if f.length < 4 ∨ 256 < f.length then .err .invalidDataLength
  else if f.drop (f.length - 2) = crcBytes (crc16 (f.take (f.length - 2))) then
    match f.take (f.length - 2) with
    | addr :: pdu => .ok addr pdu
    | [] => .err .invalidDataLength -- not reached: a frame of 4 bytes or more has an address
  else .err .invalidData

/-- `RTU_ENCODE a` (R123): the frame's CRC is returned. -/
def execRtuEncode (a : Byte) (s : State) : Result :=
  match operandPdu s with
  | none => raise .invalidValue s
  | some pdu => done ((crc16 (a :: pdu)).setWidth 32) (setResult (rtuEncode a pdu) s)

/-- `RTU_DECODE` (R124): the address is returned. -/
def execRtuDecode (s : State) : Result :=
  match rtuDecode (operandBytes s) with
  | .err e => raise e s
  | .ok addr pdu => done (addr.setWidth 32) (setResult pdu s)

end Sys2Proof.Machine
end

