-- ==== Sys2Proof/Machine/RtuLink.lean ====
section
/-! DEFINITION. The RTU link unit: its commands, the byte event and the tick (spec/42_rtu_link.md R140 to R168). -/

namespace Sys2Proof.Machine

/-- A receive or a transmit is in progress: `RX_STATE != IDLE or PENDING = 1` (R141, R142, R144, R145). -/
def linkBusy (s : State) : Bool := decide (s.rxState ≠ .idle) || s.pending

/-- The receiver is armed: `RX_STATE in {LISTEN, AWAIT}` (R143, R150). -/
def armed (s : State) : Bool :=
  match s.rxState with
  | .idle => false
  | .listen => true
  | .await => true

/-- `Emit()` (R167). -/
def emit (s : State) : State :=
  let t := signal .txDone
    { s with lineTx := s.lineTx ++ [s.txf], silence := 0, pending := false, armAwait := false }
  if s.armAwait then { t with rxState := .await, acc := [], ovf := false, wait := 0 } else t

/-- `Deliver(Ok(addr, pdu))` (R154). -/
def deliver (addr : Byte) (pdu : List Byte) (s : State) : State :=
  signal .rxFrame { s with rxf := pdu, rxAddr := addr, rxState := .idle, rxStatus := .ok }

/-- The slave's unit-id filter (R155): its own unit id, and unit 0 when `CFG.BCAST` is 1 (R45). -/
def slaveAccepts (addr : Byte) (s : State) : Bool := addr == s.unitId || (addr == 0 && s.bcast)

/-- `SlaveFilter(Ok(addr, pdu))` (R155). -/
def slaveFilter (addr : Byte) (pdu : List Byte) (s : State) : State :=
  if slaveAccepts addr s then deliver addr pdu s else signal .rxDrop s

/-- `DecodeError(e)` (R156). -/
def decodeError (e : Status) (s : State) : State :=
  signal .rxErr { s with rxState := .idle, rxStatus := e }

/-- `NoResponseTimeout()` (R157). -/
def noResponseTimeout (s : State) : State :=
  signal .noResp { s with rxState := .idle, rxStatus := .noResponse }

/-- What the accumulator decodes to at the end of a frame (R153): an overflowed one is too long. -/
def accumulated (s : State) : RtuResult :=
  if s.ovf then .err .invalidDataLength else rtuDecode s.acc

/-- `EndOfFrame()` (R153): the accumulator is always emptied. -/
def endOfFrame (s : State) : State :=
  let t := { s with acc := [], ovf := false }
  match accumulated s with
  | .err e => decodeError e t
  | .ok addr pdu => if s.rxState = .await then deliver addr pdu t else slaveFilter addr pdu t

/-- `line_rx(b)` (R143). -/
def lineRx (b : Byte) (s : State) : State :=
  let t := { s with silence := 0 }
  if armed s then
    if s.acc.length < 256 then { t with acc := s.acc ++ [b] } else { t with ovf := true }
  else t

/-- A frame ends at this tick (R150, R152): armed, a non-empty accumulator, and silence enough. -/
def frameEnds (s : State) : Bool := armed s && decide (s.acc ≠ []) && decide (s.tEof ≤ s.silence)

/-- The master waits with nothing received (R150, R157). -/
def awaitingFirstByte (s : State) : Bool := decide (s.rxState = .await) && decide (s.acc = [])

/-- One tick of the response wait (R150). -/
def responseWait (s : State) : State :=
  let t := { s with wait := satInc32 s.wait }
  if t.tResp ≤ t.wait then noResponseTimeout t else t

/-- The receive part of a tick (R150). -/
def tickReceive (s : State) : State :=
  if frameEnds s then endOfFrame s else if awaitingFirstByte s then responseWait s else s

/-- The transmit part of a tick (R150, R158). -/
def tickTransmit (s : State) : State :=
  if s.pending && decide (s.tGap ≤ s.silence) then emit s else s

/-- `tick` (R150): the silence counter (R151), then the receive part, then the transmit part. -/
def tick (s : State) : State :=
  tickTransmit (tickReceive { s with silence := satInc32 s.silence })

/-- `START_MASTER` (R141). -/
def execStartMaster (s : State) : Result :=
  if linkBusy s then raise .invalidValue s else done 0 { s with role := .master, unitId := 0 }

/-- `START_SLAVE u` (R142). -/
def execStartSlave (u : Byte) (s : State) : Result :=
  if linkBusy s then raise .invalidValue s
  else if u.toNat < 1 ∨ 247 < u.toNat then raise .invalidValue s
  else done 0 { s with role := .slave, unitId := u }

/-- `RTU_LISTEN` (R144). -/
def execRtuListen (s : State) : Result :=
  if s.role ≠ .slave then raise .invalidValue s
  else if linkBusy s then raise .invalidValue s
  else done 0 { s with rxState := .listen, acc := [], ovf := false }

/-- A frame to be sent is in `TXF` (R145): emitted in this step if the line has been silent for the gap, else pending. -/
def sendOrWait (s : State) : State :=
  if s.tGap ≤ s.silence then emit s else { s with pending := true }

/-- `RTU_SEND a` (R145, R159): the frame's length is returned; only a master's frame to a unit other than 0 arms the receiver. -/
def execRtuSend (a : Byte) (s : State) : Result :=
  if s.role = .unset then raise .invalidValue s
  else if linkBusy s then raise .invalidValue s
  else
    match operandPdu s with
    | none => raise .invalidValue s
    | some pdu =>
      done (BitVec.ofNat 32 (rtuEncode a pdu).length)
        (sendOrWait { s with txf := rtuEncode a pdu, armAwait := decide (s.role = .master ∧ a ≠ 0) })

/-- `RXF_READ i` (R146). -/
def execRxfRead (i : Word) (s : State) : Result :=
  match readByte .rxf (operandIndex i) s with
  | none => raise .invalidValue s
  | some b => done (b.setWidth 32) s

end Sys2Proof.Machine
end

