-- ==== Sys2Proof/Machine/Dispatch.lean ====
section
/-! DEFINITION. One arm per command of spec/30_encoding.md R83. -/

namespace Sys2Proof.Machine

def exec (i : Instr) (s : State) : Host.Outcome State Fault Refusal :=
  match i with
  -- host interface (44_host_interface.md)
  | .nop => Sys2Proof.Machine.execNop s
  | .softReset => Sys2Proof.Machine.execSoftReset s
  | .opbClear => Sys2Proof.Machine.execOpbClear s
  | .opbPush b => Sys2Proof.Machine.execOpbPush b s
  | .resRead k => Sys2Proof.Machine.execResRead k s
  | .csrRead n => Sys2Proof.Machine.execCsrRead n s
  | .csrWrite n v => Sys2Proof.Machine.execCsrWrite n v s
  -- CRC unit (40_crc.md)
  | .crcInit => Sys2Proof.Machine.execCrcInit s
  | .crcByte b => Sys2Proof.Machine.execCrcByte b s
  | .crcBuf => Sys2Proof.Machine.execCrcBuf s
  | .crcRead => Sys2Proof.Machine.execCrcRead s
  -- RTU framer (41_rtu_framer.md)
  | .rtuEncode a => Sys2Proof.Machine.execRtuEncode a s
  | .rtuDecode => Sys2Proof.Machine.execRtuDecode s
  -- RTU link unit (42_rtu_link.md)
  | .startMaster => Sys2Proof.Machine.execStartMaster s
  | .startSlave u => Sys2Proof.Machine.execStartSlave u s
  | .rtuListen => Sys2Proof.Machine.execRtuListen s
  | .rtuSend a => Sys2Proof.Machine.execRtuSend a s
  | .rxfRead k => Sys2Proof.Machine.execRxfRead k s
  -- MBAP unit (43_mbap.md)
  | .mbapFormat u t => Sys2Proof.Machine.execMbapFormat u t s
  | .mbapEncode u => Sys2Proof.Machine.execMbapEncode u s
  | .mbapParse => Sys2Proof.Machine.execMbapParse s
  | .mbapPush b => Sys2Proof.Machine.execMbapPush b s
  | .mbapStreamClear => Sys2Proof.Machine.execMbapStreamClear s

end Sys2Proof.Machine
end

