-- ==== Sys2Proof/Machine/Command.lean ====
section
/-! DEFINITION. What one input does: a command word is decoded and run (spec/30_encoding.md R84, R85, R92), a line byte and
a tick are the events of 42_rtu_link.md. -/

namespace Sys2Proof.Machine

/-- A command word (R92): an illegal opcode (R84) and a reserved-field violation (R85) return `InvalidValue` with result data
0 and change no state; any other word runs its command. -/
def runCommand (w : CommandWord) (s : State) : Result :=
  match decode w with
  | .error _ => raise .invalidValue s
  | .ok i => exec i s

/-- One atomic step of an agent (R73, R76): the host, the line receiver or the time base. -/
def takeInput (a : Input) (s : State) : Result :=
  match a with
  | .command w => runCommand w s
  | .lineRx b => .next (lineRx b s)
  | .tick => .next (tick s)

/-- No input arrives: the block does nothing (R265). -/
def noInput (s : State) : Result := .next s

end Sys2Proof.Machine
end

