-- ==== Sys2Proof/Machine/Step.lean ====
section
/-! DEFINITION. One step of the block (spec/20_memory.md R73, R76; 60_exceptions.md R255, R265). -/

namespace Sys2Proof.Machine

/-- The block takes the next input, whichever agent it comes from (log 1); with none it does nothing (R265). -/
def step (s : State) : Host.Outcome State Fault Refusal :=
  match s.inputs with
  | [] => noInput s
  | a :: rest => takeInput a { s with inputs := rest }

/-- `s` with a command word, in the opcode table's numbering of its bits, as the next input (log 3). The block fetches
nothing (10_state.md R21); this is the host writing the word to the command port. -/
def State.withFetchWord (s : State) (nbits w : Nat) : State :=
  { s with inputs := .command (tableWord nbits w) :: s.inputs }

end Sys2Proof.Machine
end

