-- ==== Sys2Proof/Safety.lean ====
section
/-! DEFINITION. The terms the statements use: which parts of the state a step leaves unchanged, the invariant of the
machine, runs of commands and of events, the link's transitions (spec/42_rtu_link.md R168), and the timing windows
(70_reset_and_hazards.md R284, R285). -/

namespace Sys2Proof.Machine

/-- The fields of State, by name. -/
inductive Field where
  | crc | role | unitId | rxState | pending | armAwait | rxStatus | tEof | tGap | tResp | silence | wait | acc | ovf
  | rxf | rxAddr | txf | txn | mrx | opb | resb | evt | ie | bcast | inputs | resp | lineTx
  deriving DecidableEq, Repr

/-- Two states agree on a field. -/
def Field.same (f : Field) (s t : State) : Prop :=
  match f with
  | .crc => t.crc = s.crc
  | .role => t.role = s.role
  | .unitId => t.unitId = s.unitId
  | .rxState => t.rxState = s.rxState
  | .pending => t.pending = s.pending
  | .armAwait => t.armAwait = s.armAwait
  | .rxStatus => t.rxStatus = s.rxStatus
  | .tEof => t.tEof = s.tEof
  | .tGap => t.tGap = s.tGap
  | .tResp => t.tResp = s.tResp
  | .silence => t.silence = s.silence
  | .wait => t.wait = s.wait
  | .acc => t.acc = s.acc
  | .ovf => t.ovf = s.ovf
  | .rxf => t.rxf = s.rxf
  | .rxAddr => t.rxAddr = s.rxAddr
  | .txf => t.txf = s.txf
  | .txn => t.txn = s.txn
  | .mrx => t.mrx = s.mrx
  | .opb => t.opb = s.opb
  | .resb => t.resb = s.resb
  | .evt => t.evt = s.evt
  | .ie => t.ie = s.ie
  | .bcast => t.bcast = s.bcast
  | .inputs => t.inputs = s.inputs
  | .resp => t.resp = s.resp
  | .lineTx => t.lineTx = s.lineTx

/-- Every field but the named ones is unchanged from `s` to `t`. A buffer is one field, so an unnamed buffer keeps its
length and every byte. -/
def UnchangedExcept (changed : List Field) (s t : State) : Prop := ∀ f, f ∉ changed → f.same s t

/-- `exec i s` answers a next state in which the command port shows status `st` and result data `d`, every field but
`resp` and those of `changed` is as before, and `post` holds. -/
def Answers (i : Instr) (s : State) (st : Status) (d : Word) (changed : List Field) (post : State → Prop) : Prop :=
  ∃ t, exec i s = .next t ∧ t.resp = some ⟨st, d⟩ ∧ UnchangedExcept (.resp :: changed) s t ∧ post t

/-- A command that fails and writes nothing (R10, R252). -/
def Refuses (i : Instr) (s : State) (st : Status) : Prop := Answers i s st 0 [] fun _ => True

/-- An input that is no command is taken with a next state in which every field but those of `changed` is as before, and
`post` holds. -/
def Takes (a : Input) (s : State) (changed : List Field) (post : State → Prop) : Prop :=
  ∃ t, takeInput a s = .next t ∧ UnchangedExcept changed s t ∧ post t

/-- The command's word, in the arithmetic of R81: `OP` at 2^56, `A` at 2^48, `Z` = 0, `B` at 1. -/
def EncodedAs (i : Instr) (op a b : Nat) : Prop := (encode i).toNat = op * 2 ^ 56 + a * 2 ^ 48 + b

/-- A PDU of 1 to 253 bytes stands in `OPB` (R6, R123). -/
abbrev PduLoaded (s : State) : Prop := 1 ≤ s.opb.length ∧ s.opb.length ≤ 253

/-- The fields a command may write, besides `resp`. -/
def commandWrites : Instr → List Field
  | .nop => []
  | .softReset =>
    [ .crc, .role, .unitId, .rxState, .pending, .armAwait, .rxStatus, .tEof, .tGap, .tResp, .silence, .wait, .acc
    , .ovf, .rxf, .rxAddr, .txf, .mrx, .opb, .resb, .evt, .ie, .bcast ]
  | .opbClear => [.opb]
  | .opbPush _ => [.opb]
  | .resRead _ => []
  | .csrRead _ => []
  | .csrWrite _ _ => [.tEof, .tGap, .tResp, .txn, .evt, .ie, .bcast]
  | .crcInit => [.crc]
  | .crcByte _ => [.crc]
  | .crcBuf => [.crc]
  | .crcRead => []
  | .rtuEncode _ => [.resb]
  | .rtuDecode => [.resb]
  | .startMaster => [.role, .unitId]
  | .startSlave _ => [.role, .unitId]
  | .rtuListen => [.rxState, .acc, .ovf]
  | .rtuSend _ => [.txf, .pending, .armAwait, .lineTx, .silence, .evt, .rxState, .acc, .ovf, .wait]
  | .rxfRead _ => []
  | .mbapFormat _ _ => [.resb]
  | .mbapEncode _ => [.resb, .txn]
  | .mbapParse => [.resb]
  | .mbapPush _ => [.mrx, .resb]
  | .mbapStreamClear => [.mrx]

/-- The fields an input may write. -/
def inputWrites : Input → List Field
  | .command w =>
    match decode w with
    | .ok i => .resp :: commandWrites i
    | .error _ => [.resp]
  | .lineRx _ => [.silence, .acc, .ovf]
  | .tick =>
    [.silence, .wait, .acc, .ovf, .rxState, .rxStatus, .rxf, .rxAddr, .evt, .pending, .armAwait, .lineTx]

/-- The field that holds a buffer. -/
def bufferField : Buffer → Field
  | .opb => .opb
  | .resb => .resb
  | .acc => .acc
  | .rxf => .rxf
  | .txf => .txf
  | .mrx => .mrx

/-- The commands one after another; the first stop ends the run. -/
def execAll : List Instr → State → Result
  | [], s => .next s
  | i :: rest, s =>
    match exec i s with
    | .next t => execAll rest t
    | .fault f => .fault f
    | .refused r => .refused r

/-- `n` ticks with no other input. -/
def ticks : Nat → State → State
  | 0, s => s
  | n + 1, s => ticks n (tick s)

/-- Bytes from the line, each followed by its number of ticks. -/
def receive : List (Byte × Nat) → State → State
  | [], s => s
  | (b, n) :: rest, s => receive rest (ticks n (lineRx b s))

/-- An RTU frame (R120): an address, a PDU of 1 to 253 bytes, and their CRC, low byte first. -/
def IsRtuFrame (f : List Byte) : Prop :=
  ∃ addr pdu, 1 ≤ pdu.length ∧ pdu.length ≤ 253 ∧ f = rtuEncode addr pdu

/-- The invariant of the machine: what every reachable state satisfies. -/
structure MachineInv (s : State) : Prop where
  /-- no buffer exceeds its capacity (R8) -/
  buffers : Memory.wf s = true
  /-- a slave's unit id is 1 to 247 (R26) -/
  slaveUnit : s.role = .slave → 1 ≤ s.unitId.toNat ∧ s.unitId.toNat ≤ 247
  /-- in the other roles the unit id is 0 (R26) -/
  otherUnit : s.role ≠ .slave → s.unitId = 0
  /-- only a slave listens (R144) -/
  listenRole : s.rxState = .listen → s.role = .slave
  /-- only a master awaits a response (R145, R167) -/
  awaitRole : s.rxState = .await → s.role = .master
  /-- a transmit is pending only while the receiver is idle (R150, R168) -/
  pendingIdle : s.pending = true → s.rxState = .idle
  /-- `ARM_AWAIT` is 0 whenever `PENDING` is 0 (R28) -/
  armPending : s.armAwait = true → s.pending = true
  /-- only a master's frame arms the receiver (R145) -/
  armRole : s.armAwait = true → s.role = .master
  /-- a pending transmit has a frame to send (R145) -/
  pendingFrame : s.pending = true → IsRtuFrame s.txf
  /-- `TXF` is empty before any send, else it holds a frame (R42, R65) -/
  txfFrame : s.txf = [] ∨ IsRtuFrame s.txf
  /-- whatever was put on the line was an RTU frame (R86, R120) -/
  lineFrames : ∀ f ∈ s.lineTx, IsRtuFrame f
  /-- `RX_STATUS` holds no other value (R29) -/
  rxStatusLegal : s.rxStatus ∈ [Status.ok, .invalidData, .invalidDataLength, .noResponse, .none]
  /-- `T_EOF` is never 0 (R30) -/
  eofLegal : s.tEof ≠ 0
  /-- `T_RESP` is never 0 (R32) -/
  respLegal : s.tResp ≠ 0
  /-- `OVF` is 1 only while `LEN` is 256 (R35) -/
  ovfFull : s.ovf = true → s.acc.length = 256
  /-- nothing accumulates while the receiver is idle (R143, R153) -/
  idleEmpty : s.rxState = .idle → s.acc = []
  /-- a delivered PDU is 1 to 253 bytes (R36) -/
  okDelivered : s.rxStatus = .ok → s.rxf ≠ []
  /-- between commands the stream buffer holds an incomplete frame (R196), so at most 259 bytes (R39) -/
  mrxPartial : mbapParse s.mrx = .tooShort

/-- The armed receiver takes a frame to this address as its own (R154, R155). -/
def acceptsAddress (addr : Byte) (s : State) : Bool :=
  match s.rxState with
  | .idle => false
  | .listen => slaveAccepts addr s
  | .await => true

/-- The moves of the receiver and the transmitter (R168), each with its condition and its effect. -/
inductive LinkMove (s : State) (t : State) : Input → Prop where
  /-- (IDLE, 0) to (LISTEN, 0): `RTU_LISTEN` by a slave -/
  | listens (w : CommandWord) (hw : decode w = .ok .rtuListen) (role : s.role = .slave) (idle : linkBusy s = false)
      (rx : t.rxState = .listen) (tx : t.pending = false) (line : t.lineTx = s.lineTx) : LinkMove s t (.command w)
  /-- (IDLE, 0) to (AWAIT, 0): `RTU_SEND` to a unit other than 0 by a master, after the gap -/
  | sendsAndAwaits (w : CommandWord) (a : Byte) (hw : decode w = .ok (.rtuSend a)) (role : s.role = .master) (unit : a ≠ 0)
      (idle : linkBusy s = false) (gap : s.tGap ≤ s.silence)
      (rx : t.rxState = .await) (tx : t.pending = false) (line : t.lineTx = s.lineTx ++ [t.txf]) : LinkMove s t (.command w)
  /-- (IDLE, 0) to (IDLE, 0): `RTU_SEND` by a slave or to unit 0, after the gap -/
  | sendsOnly (w : CommandWord) (a : Byte) (hw : decode w = .ok (.rtuSend a)) (role : s.role = .slave ∨ a = 0)
      (idle : linkBusy s = false) (gap : s.tGap ≤ s.silence)
      (rx : t.rxState = .idle) (tx : t.pending = false) (line : t.lineTx = s.lineTx ++ [t.txf]) : LinkMove s t (.command w)
  /-- (IDLE, 0) to (IDLE, 1): `RTU_SEND` before the gap -/
  | waitsForGap (w : CommandWord) (a : Byte) (hw : decode w = .ok (.rtuSend a)) (idle : linkBusy s = false)
      (gap : s.silence < s.tGap)
      (rx : t.rxState = .idle) (tx : t.pending = true) (line : t.lineTx = s.lineTx) : LinkMove s t (.command w)
  /-- (IDLE, 1) to (AWAIT, 0) or (IDLE, 0): the tick that completes the gap -/
  | gapEnds (idle : s.rxState = .idle) (pending : s.pending = true) (gap : s.tGap ≤ satInc32 s.silence)
      (rx : t.rxState = if s.armAwait then .await else .idle) (tx : t.pending = false)
      (line : t.lineTx = s.lineTx ++ [s.txf]) : LinkMove s t .tick
  /-- (LISTEN, 0) or (AWAIT, 0) to (IDLE, 0): end of a frame for this receiver, delivered -/
  | delivers (addr : Byte) (pdu : List Byte) (armed : armed s = true) (free : s.pending = false)
      (frame : accumulated s = .ok addr pdu) (own : acceptsAddress addr s = true)
      (rx : t.rxState = .idle) (tx : t.pending = false) (status : t.rxStatus = .ok) (data : t.rxf = pdu)
      (from_ : t.rxAddr = addr) (line : t.lineTx = s.lineTx) : LinkMove s t .tick
  /-- (LISTEN, 0) to (LISTEN, 0): end of a frame for another unit, dropped -/
  | drops (addr : Byte) (pdu : List Byte) (listen : s.rxState = .listen) (free : s.pending = false)
      (frame : accumulated s = .ok addr pdu) (other : acceptsAddress addr s = false)
      (rx : t.rxState = .listen) (tx : t.pending = false) (event : hasEvent .rxDrop t.evt = true)
      (line : t.lineTx = s.lineTx) : LinkMove s t .tick
  /-- (LISTEN, 0) or (AWAIT, 0) to (IDLE, 0): end of a frame that fails to decode -/
  | fails (e : Status) (armed : armed s = true) (free : s.pending = false) (frame : accumulated s = .err e)
      (rx : t.rxState = .idle) (tx : t.pending = false) (status : t.rxStatus = e)
      (event : hasEvent .rxErr t.evt = true) (line : t.lineTx = s.lineTx) : LinkMove s t .tick
  /-- (AWAIT, 0) to (IDLE, 0): the response wait ran out with nothing received -/
  | timesOut (await : s.rxState = .await) (free : s.pending = false) (empty : s.acc = [])
      (expired : s.tResp ≤ satInc32 s.wait)
      (rx : t.rxState = .idle) (tx : t.pending = false) (status : t.rxStatus = .noResponse)
      (event : hasEvent .noResp t.evt = true) (line : t.lineTx = s.lineTx) : LinkMove s t .tick
  /-- any to (IDLE, 0): `SOFT_RESET` -/
  | resets (w : CommandWord) (hw : decode w = .ok .softReset)
      (rx : t.rxState = .idle) (tx : t.pending = false) (line : t.lineTx = s.lineTx) : LinkMove s t (.command w)

/-- What sets an event's bit (R256). -/
def EventCause (e : Event) (a : Input) (s t : State) : Prop :=
  match e with
  | .rxFrame => a = .tick ∧ armed s = true ∧ s.acc ≠ [] ∧ t.rxState = .idle ∧ t.rxStatus = .ok
  | .rxErr =>
    a = .tick ∧ armed s = true ∧ s.acc ≠ [] ∧ t.rxState = .idle ∧ t.rxStatus ∈ [Status.invalidData, .invalidDataLength]
  | .noResp => a = .tick ∧ s.rxState = .await ∧ s.acc = [] ∧ t.rxState = .idle ∧ t.rxStatus = .noResponse
  | .txDone => t.lineTx = s.lineTx ++ [t.txf]
  | .rxDrop => a = .tick ∧ s.rxState = .listen ∧ s.acc ≠ [] ∧ t.rxState = .listen ∧ t.acc = []

/-- The end-of-frame window (R284): with tick period `period` and character time `char`, back-to-back bytes are not cut and a
silence of 1.5 characters ends the frame. -/
abbrev EofWindow (period char : Nat) (tEof : Word) : Prop :=
  char ≤ (tEof.toNat - 1) * period ∧ 2 * (tEof.toNat * period) ≤ 3 * char

/-- The transmit-gap window (R285): every emission follows at least `gap` of silence. -/
abbrev GapWindow (period gap : Nat) (tGap : Word) : Prop := gap ≤ (tGap.toNat - 1) * period

/-- The software obligation on the timing registers (R284, R285) with this machine's `TICK_PERIOD`: a run is timed safely
while it holds. The block does not check it (I16). -/
def TimedSafely (char gap : Nat) (s : State) : Prop :=
  EofWindow Config.tickPeriod char s.tEof ∧ GapWindow Config.tickPeriod gap s.tGap

/-- A safe step is one that answers a next state: the block has no fault and no stuck state (R252, I17). -/
def StepsSafely (s : State) : Prop := ∃ t, step s = .next t

end Sys2Proof.Machine
end

