-- ==== Sys2Proof/Certificates/Slice0/Obligations.lean ====
section
/-! DEFINITION. The statements about MBLINK, each with the rule of spec/ it formalises. `Answers`, `Refuses`, `Takes`,
`UnchangedExcept` and the other terms are in Safety.lean. -/

open Sys2Proof Sys2Proof.Machine

/-! Encoding and the step -/

/-- R81, R83: decoding a command's word gives the command back, for every command and every operand. -/
def Obligations.DecodeOfEncode : Prop := ∀ i : Instr, decode (encode i) = .ok i

/-- R81, R83: a word that decodes is the encoding of what it decodes to, so no bit of a word is dropped. -/
def Obligations.EncodeOfDecode : Prop := ∀ w i, decode w = .ok i → encode i = w

/-- R83, R85: the decoder, written from the fields of R81, reads a command from a word exactly where the word selects that
command's row of the table of masks and values. -/
def Obligations.DecoderAgreesWithOpcodeTable : Prop :=
  (∀ w i, decode w = .ok i → ∃ r ∈ opcodeTable, r.mnemonic = i.mnemonic ∧ r.selects w = true) ∧
  (∀ w r, r ∈ opcodeTable → r.selects w = true → ∃ i, decode w = .ok i ∧ i.mnemonic = r.mnemonic)

/-- Words written out from R81 and R83 (95_test_vectors.md section 3) and the commands they stand for. -/
def Obligations.SampleCommandWords : Prop :=
  decode 0x0307000000000000 = .ok (.opbPush 0x07) ∧
  decode 0x0607000000000064 = .ok (.csrWrite 0x07 100) ∧
  decode 0x1102000000000000 = .ok (.crcByte 0x02) ∧
  decode 0x2002000000000000 = .ok (.rtuEncode 0x02) ∧
  decode 0x3311000000000000 = .ok (.rtuSend 0x11) ∧
  decode 0x3400000000000007 = .ok (.rxfRead 7) ∧
  decode 0x40FF000000001501 = .ok (.mbapFormat 0xFF 0x1501)

/-- R92, R73: when the next input is a word that decodes to a command, the step is that command at the state without the
word. The block has no program counter to move (R21). -/
def Obligations.StepRunsTheDecodedCommand : Prop :=
  ∀ s rest w i, s.inputs = .command w :: rest → decode w = .ok i → step s = exec i { s with inputs := rest }

/-- R48, R265: the other inputs are the byte event and the tick; with no input the block does nothing. -/
def Obligations.StepTakesEventsOrNothing : Prop :=
  (∀ s rest b, s.inputs = .lineRx b :: rest → step s = .next (lineRx b { s with inputs := rest })) ∧
  (∀ s rest, s.inputs = .tick :: rest → step s = .next (tick { s with inputs := rest })) ∧
  (∀ s, s.inputs = [] → step s = .next s)

/-- R84: the opcodes outside the map of R83 are those of R84's ranges, and a word with one of them returns `InvalidValue`
(code 2) with data 0 and changes no state. -/
def Obligations.IllegalOpcodesAreRefused : Prop :=
  ∀ s rest w, s.inputs = .command w :: rest →
    let op := (opField w).toNat
    (legalOpcode (opField w) = false ↔
      (0x07 ≤ op ∧ op ≤ 0x0F) ∨ (0x14 ≤ op ∧ op ≤ 0x1F) ∨ (0x22 ≤ op ∧ op ≤ 0x2F) ∨ (0x35 ≤ op ∧ op ≤ 0x3F) ∨ 0x45 ≤ op) ∧
    (legalOpcode (opField w) = false →
      decode w = .error (.illegalOpcode (opField w)) ∧
      ∃ t, step s = .next t ∧ t.resp = some ⟨.invalidValue, 0⟩ ∧ statusCode .invalidValue = 2 ∧
        UnchangedExcept [.resp, .inputs] s t ∧ t.inputs = rest)

/-- R85: a word whose opcode is a row's but which has a 1 in a bit the row fixes to 0 returns `InvalidValue` with data 0 and
changes no state; a word is taken as a command only if it agrees with the row under its mask. -/
def Obligations.ReservedEncodingsAreRefused : Prop :=
  (∀ s rest w r, s.inputs = .command w :: rest → r ∈ opcodeTable → opField w = r.op → w &&& r.mask ≠ r.value →
    decode w = .error (.reservedField r.op) ∧
    ∃ t, step s = .next t ∧ t.resp = some ⟨.invalidValue, 0⟩ ∧ UnchangedExcept [.resp, .inputs] s t ∧ t.inputs = rest) ∧
  (∀ w i, decode w = .ok i → ∃ r ∈ opcodeTable, r.mnemonic = i.mnemonic ∧ w &&& r.mask = r.value)

/-- R252, I17: every step, from every state and on every input, answers a next state. -/
def Obligations.EveryStepAnswersNext : Prop := ∀ s, StepsSafely s

/-! The invariant and reset -/

/-- The invariant of the machine is kept by every step from every state that has it (R8, R25 to R29, R35, R36, R39, R42,
R86, R168). -/
def Obligations.StepKeepsInvariant : Prop := ∀ s t, MachineInv s → step s = .next t → MachineInv t

/-- The reset state has the invariant, for all legal parameters (R7, R51). -/
def Obligations.ResetMeetsInvariant : Prop :=
  (∀ p : Params, p.Legal → MachineInv (State.resetWith p)) ∧ MachineInv State.reset

/-- R51: the value of every piece of state after power-on reset, in terms of the parameters of R7. -/
def Obligations.ResetValues : Prop :=
  State.reset = State.resetWith Config.params ∧
  ∀ p : Params, let s := State.resetWith p
    s.crc = 0xFFFF ∧ s.role = .unset ∧ s.unitId = 0 ∧ s.rxState = .idle ∧ s.pending = false ∧ s.armAwait = false ∧
    s.rxStatus = .none ∧ statusCode .none = 15 ∧ s.tEof = p.eofReset ∧ s.tGap = p.gapReset ∧ s.tResp = p.respReset ∧
    s.silence = 0 ∧ s.wait = 0 ∧ s.acc.length = 0 ∧ s.ovf = false ∧ s.rxf.length = 0 ∧ s.rxAddr = 0 ∧
    s.txn = p.txnInit ∧ s.mrx.length = 0 ∧ s.opb.length = 0 ∧ s.resb.length = 0 ∧ s.txf.length = 0 ∧
    s.evt = 0 ∧ s.ie = 0 ∧ s.bcast = p.bcastAcceptReset ∧ irq s = false ∧ ∀ b i, readByte b i s = none

/-- R282, an inference the spec marks as derived from R51 and R143 to R145: after power-on reset and after `SOFT_RESET`, `RTU_LISTEN` and `RTU_SEND` are refused, received bytes are discarded,
and `irq` is 0; `SILENCE` is 0, and a first `RTU_SEND` made while it is 0 is on the line at once if `T_GAP` = 0 and otherwise
exactly at the `T_GAP`-th tick. -/
def Obligations.AfterEitherReset : Prop :=
  (∀ t, (t = State.reset ∨ ∃ s, exec .softReset s = .next t) →
    t.role = .unset ∧ Refuses .rtuListen t .invalidValue ∧ (∀ a, Refuses (.rtuSend a) t .invalidValue) ∧
    (∀ b, Takes (.lineRx b) t [.silence] fun u => u.acc = [] ∧ u.silence = 0) ∧
    t.ie = 0 ∧ irq t = false ∧ t.silence = 0) ∧
  (∀ s a, s.silence = 0 → s.role ≠ .unset → linkBusy s = false → PduLoaded s →
    ∃ t, exec (.rtuSend a) s = .next t ∧
      (s.tGap = 0 → t.lineTx = s.lineTx ++ [rtuEncode a s.opb]) ∧
      (s.tGap ≠ 0 →
        (∀ k, k < s.tGap.toNat → (ticks k t).lineTx = s.lineTx) ∧
        (ticks s.tGap.toNat t).lineTx = s.lineTx ++ [rtuEncode a s.opb]))

/-! Host interface -/

/-- R220: `NOP` is the all-zero word, answers (OK, 0) and writes nothing; any other word with its opcode is refused. -/
def Obligations.NopDoesNothing : Prop :=
  EncodedAs .nop 0 0 0 ∧ (∀ s, Answers .nop s .ok 0 [] fun _ => True) ∧
  (∀ w, opField w = 0 → w ≠ 0 → decode w = .error (.reservedField 0))

/-- R221: `SOFT_RESET` puts every state element at its reset value but keeps the transaction-id counter; nothing is emitted,
and `irq` falls to 0. (`inputs`, `resp` and `lineTx` are the block's ports and no state elements of R51.) -/
def Obligations.SoftResetKeepsOnlyTxn : Prop :=
  EncodedAs .softReset 0x01 0 0 ∧
  ∀ s, ∃ t, exec .softReset s = .next t ∧ t.resp = some ⟨.ok, 0⟩ ∧ t.txn = s.txn ∧
    UnchangedExcept [.txn, .resp, .inputs, .lineTx] State.reset t ∧ t.lineTx = s.lineTx ∧ irq t = false

/-- R222, R223: `OPB_CLEAR` empties the operand buffer; `OPB_PUSH` stores one byte at its end, leaves every other byte, and
returns the new length; with 260 bytes in the buffer it fails. -/
def Obligations.OperandBufferCommands : Prop :=
  EncodedAs .opbClear 0x02 0 0 ∧ (∀ b : Byte, EncodedAs (.opbPush b) 0x03 b.toNat 0) ∧
  (∀ s, Answers .opbClear s .ok 0 [.opb] fun t => t.opb = []) ∧
  (∀ s b, s.opb.length < 260 →
    Answers (.opbPush b) s .ok (BitVec.ofNat 32 (s.opb.length + 1)) [.opb] fun t =>
      t.opb.length = s.opb.length + 1 ∧ readByte .opb s.opb.length t = some b ∧
      ∀ i, i ≠ s.opb.length → readByte .opb i t = readByte .opb i s) ∧
  (∀ s b, s.opb.length = 260 → Refuses (.opbPush b) s .invalidValue)

/-- R224, R146: `RES_READ` and `RXF_READ` return the byte below the length and write nothing; at or beyond the length they
fail, and `RXF_READ` fails at every index of 2^8 or more. -/
def Obligations.BufferReads : Prop :=
  (∀ i : Word, EncodedAs (.resRead i) 0x04 0 i.toNat ∧ EncodedAs (.rxfRead i) 0x34 0 i.toNat) ∧
  (∀ s (i : Word) (h : i.toNat < s.resb.length), Answers (.resRead i) s .ok (s.resb[i.toNat].setWidth 32) [] fun _ => True) ∧
  (∀ s (i : Word), s.resb.length ≤ i.toNat → Refuses (.resRead i) s .invalidValue) ∧
  (∀ s (i : Word) (h : i.toNat < s.rxf.length), Answers (.rxfRead i) s .ok (s.rxf[i.toNat].setWidth 32) [] fun _ => True) ∧
  (∀ s (i : Word), s.rxf.length ≤ i.toNat → Refuses (.rxfRead i) s .invalidValue) ∧
  (∀ s (i : Word), Memory.wf s = true → 2 ^ 8 ≤ i.toNat → Refuses (.rxfRead i) s .invalidValue)

/-- R225, with the layouts of R24 to R45: `CSR_READ` returns the CSR's value, reserved bits 0, and writes nothing; an
unassigned number fails. The lengths are those of buffers within their capacities (R8). -/
def Obligations.CsrReads : Prop :=
  (∀ n : Byte, EncodedAs (.csrRead n) 0x05 n.toNat 0) ∧
  (∀ s, Memory.wf s = true →
    let reads (n : Byte) (v : Nat) : Prop := v < 2 ^ 32 ∧ Answers (.csrRead n) s .ok (BitVec.ofNat 32 v) [] fun _ => True
    reads 0x00 s.crc.toNat ∧
    reads 0x01 (match s.role with | .unset => 0 | .master => 1 | .slave => 2) ∧
    reads 0x02 s.unitId.toNat ∧
    reads 0x03 (match s.rxState with | .idle => 0 | .listen => 1 | .await => 2) ∧
    reads 0x04 (s.pending.toNat + 2 * s.armAwait.toNat) ∧
    reads 0x05 (statusCode s.rxStatus).toNat ∧
    reads 0x06 s.tEof.toNat ∧ reads 0x07 s.tGap.toNat ∧ reads 0x08 s.tResp.toNat ∧
    reads 0x09 s.silence.toNat ∧ reads 0x0A s.wait.toNat ∧
    reads 0x0B (s.acc.length + 2 ^ 15 * s.ovf.toNat) ∧
    reads 0x0C s.rxf.length ∧ reads 0x0D s.rxAddr.toNat ∧ reads 0x0E s.txn.toNat ∧ reads 0x0F s.mrx.length ∧
    reads 0x10 s.opb.length ∧ reads 0x11 s.resb.length ∧ reads 0x12 s.txf.length ∧
    reads 0x13 s.evt.toNat ∧ reads 0x14 s.ie.toNat ∧ reads 0x15 s.bcast.toNat) ∧
  (∀ s (n : Byte), 0x15 < n.toNat → Refuses (.csrRead n) s .invalidValue)

/-- R226: `CSR_WRITE` of each writable CSR, bits of the value in reserved positions ignored; every other number fails. -/
def Obligations.CsrWrites : Prop :=
  (∀ (n : Byte) (v : Word), EncodedAs (.csrWrite n v) 0x06 n.toNat v.toNat) ∧
  (∀ s (v : Word),
    Answers (.csrWrite 0x06 v) s .ok 0 [.tEof] (fun t => t.tEof = if v = 0 then 1 else v) ∧
    Answers (.csrWrite 0x07 v) s .ok 0 [.tGap] (fun t => t.tGap = v) ∧
    Answers (.csrWrite 0x08 v) s .ok 0 [.tResp] (fun t => t.tResp = if v = 0 then 1 else v) ∧
    Answers (.csrWrite 0x0E v) s .ok 0 [.txn] (fun t => t.txn.toNat = v.toNat % 2 ^ 16) ∧
    Answers (.csrWrite 0x13 v) s .ok 0 [.evt]
      (fun t => ∀ k, k < 5 → t.evt.getLsbD k = (s.evt.getLsbD k && !v.getLsbD k)) ∧
    Answers (.csrWrite 0x14 v) s .ok 0 [.ie] (fun t => t.ie.toNat = v.toNat % 2 ^ 5) ∧
    Answers (.csrWrite 0x15 v) s .ok 0 [.bcast] (fun t => t.bcast.toNat = v.toNat % 2)) ∧
  (∀ s (n : Byte) (v : Word), n ∉ [0x06, 0x07, 0x08, 0x0E, 0x13, 0x14, 0x15] → Refuses (.csrWrite n v) s .invalidValue)

/-! CRC unit -/

/-- R102, R103, R104, R105: the CRC unit's commands answer OK in every state; their results, with the corner values of R103
and the example of R104. `CRC_BUF` folds the operand buffer, byte by byte, and leaves it. -/
def Obligations.CrcCommands : Prop :=
  EncodedAs .crcInit 0x10 0 0 ∧ (∀ b : Byte, EncodedAs (.crcByte b) 0x11 b.toNat 0) ∧ EncodedAs .crcBuf 0x12 0 0 ∧
  EncodedAs .crcRead 0x13 0 0 ∧
  (∀ s, Answers .crcInit s .ok 0 [.crc] fun t => t.crc = 0xFFFF) ∧
  (∀ s b, Answers (.crcByte b) s .ok ((crcStep s.crc b).setWidth 32) [.crc] fun t => t.crc = crcStep s.crc b) ∧
  (∀ s, Answers .crcBuf s .ok ((s.opb.foldl crcStep s.crc).setWidth 32) [.crc] fun t => t.crc = s.opb.foldl crcStep s.crc) ∧
  (∀ s, Answers .crcRead s .ok (s.crc.setWidth 32) [] fun _ => True) ∧
  crcStep 0x0001 0x00 = 0xC0C1 ∧ crcStep 0x0000 0x00 = 0x0000 ∧ crcStep 0xFFFF 0xFF = 0x00FF ∧
  crcStep 0xFFFF 0x02 = 0x813E ∧ crcStep 0x813E 0x07 = 0x1241 ∧
  [0x31, 0x32, 0x33, 0x34, 0x35, 0x36, 0x37, 0x38, 0x39].foldl crcStep 0xFFFF = 0x4B37

/-- An inference that R104 marks as its own, from R103 and R104: `CRC_BUF` ends in the state, up to the port's output, that
the sequence of `CRC_BYTE` over the operand buffer's bytes ends in. -/
def Obligations.CrcBufFoldsTheBytes : Prop :=
  ∀ s, ∃ t u, exec .crcBuf s = .next t ∧ execAll (s.opb.map .crcByte) s = .next u ∧ UnchangedExcept [.resp] t u

/-- R100, R11: the CRC step in the arithmetic of the loop: eight times, halve, and xor 0xA001 when the bit shifted out is 1;
`Crc16` folds it from 0xFFFF. -/
def Obligations.CrcStepIsTheBitLoop : Prop :=
  (∀ (c : Half) (b : Byte),
    (crcStep c b).toNat =
      (fun n : Nat => if n % 2 = 1 then (n / 2) ^^^ 0xA001 else n / 2)^[8] (c.toNat ^^^ b.toNat)) ∧
  (∀ bytes : List Byte, crc16 bytes = bytes.foldl crcStep 0xFFFF)

/-- The CRC step is linear over exclusive or (from R100): a flipped bit changes the CRC in a way that does not depend on the
data. -/
def Obligations.CrcStepIsLinear : Prop :=
  (∀ (c d : Half) (a b : Byte), crcStep (c ^^^ d) (a ^^^ b) = crcStep c a ^^^ crcStep d b) ∧
  (∀ (c d : Half) (a b : List Byte), a.length = b.length →
    crcFold (c ^^^ d) (List.zipWith (· ^^^ ·) a b) = crcFold c a ^^^ crcFold d b)

/-- R106, which the spec takes from general knowledge: a byte sequence followed by its CRC, low byte first, has CRC 0, and leaves the CRC unit at 0 after `CRC_INIT` and
`CRC_BUF`. -/
def Obligations.CrcSelfCheck : Prop :=
  (∀ bytes : List Byte, crc16 (bytes ++ [lo8 (crc16 bytes), hi8 (crc16 bytes)]) = 0) ∧
  (∀ s bytes, s.opb = bytes ++ [lo8 (crc16 bytes), hi8 (crc16 bytes)] →
    ∃ t, execAll [.crcInit, .crcBuf] s = .next t ∧ t.crc = 0)

/-- R101: the CRC register is written only by `CRC_INIT`, `CRC_BYTE`, `CRC_BUF` and reset, and nothing but the CRC unit's
commands and `CSR_READ CRC` reads it: every other input does the same whatever the register holds. -/
def Obligations.CrcUnitIsSeparate : Prop :=
  (∀ s a t, takeInput a s = .next t → t.crc ≠ s.crc →
    ∃ w i, a = .command w ∧ decode w = .ok i ∧
      (i = .crcInit ∨ (∃ b, i = .crcByte b) ∨ i = .crcBuf ∨ (i = .softReset ∧ t.crc = 0xFFFF))) ∧
  (∀ s s' a t, UnchangedExcept [.crc] s s' → takeInput a s = .next t →
    (∀ w i, a = .command w → decode w = .ok i →
      (∀ b, i ≠ .crcByte b) ∧ i ≠ .crcBuf ∧ i ≠ .crcRead ∧ i ≠ .csrRead 0x00) →
    ∃ t', takeInput a s' = .next t' ∧ UnchangedExcept [.crc] t t')

/-! RTU framer -/

/-- R122: the outcomes of `RtuDecode`, the length before the CRC: a byte sequence of 4 to 256 bytes is an address, a PDU and
two CRC bytes. -/
def Obligations.RtuDecodeOutcomes : Prop :=
  (∀ f : List Byte, f.length < 4 ∨ 256 < f.length → rtuDecode f = .err .invalidDataLength) ∧
  (∀ (addr lo hi : Byte) (pdu : List Byte), 1 ≤ pdu.length → pdu.length ≤ 253 →
    rtuDecode (addr :: pdu ++ [lo, hi]) =
      if lo = lo8 (crc16 (addr :: pdu)) ∧ hi = hi8 (crc16 (addr :: pdu)) then .ok addr pdu else .err .invalidData)

/-- R125, an inference the spec marks as derived from R121 and R122: decoding what `RtuEncode` made of an address and a legal PDU gives them back. -/
def Obligations.RtuRoundTrip : Prop :=
  ∀ (u : Byte) (p : List Byte), 1 ≤ p.length → p.length ≤ 253 → rtuDecode (rtuEncode u p) = .ok u p

/-- R126, an inference the spec marks as derived from R121 and R122: every frame `RtuDecode` accepts is the encoding of what it returns, so it accepts exactly the frames of R120. -/
def Obligations.RtuDecodeAcceptsOnlyEncodings : Prop :=
  (∀ (f : List Byte) (u : Byte) (p : List Byte), rtuDecode f = .ok u p → rtuEncode u p = f) ∧
  (∀ f : List Byte, (∃ u p, rtuDecode f = .ok u p) ↔ IsRtuFrame f)

/-- R123, R121, R69: `RTU_ENCODE` puts the address, the PDU and the CRC, low byte first, in the result buffer and returns the
CRC; a PDU outside 1 to 253 bytes fails. -/
def Obligations.RtuEncodeCommand : Prop :=
  (∀ a : Byte, EncodedAs (.rtuEncode a) 0x20 a.toNat 0) ∧
  (∀ s a, PduLoaded s →
    let c := crc16 (a :: s.opb)
    Answers (.rtuEncode a) s .ok (c.setWidth 32) [.resb] fun t =>
      t.resb = a :: s.opb ++ [lo8 c, hi8 c] ∧ t.resb.length = s.opb.length + 3) ∧
  (∀ s a, ¬ PduLoaded s → Refuses (.rtuEncode a) s .invalidValue)

/-- R124: `RTU_DECODE` puts the PDU in the result buffer and returns the address, or fails with `RtuDecode`'s error. -/
def Obligations.RtuDecodeCommand : Prop :=
  EncodedAs .rtuDecode 0x21 0 0 ∧
  (∀ s addr pdu, rtuDecode s.opb = .ok addr pdu →
    Answers .rtuDecode s .ok (addr.setWidth 32) [.resb] fun t => t.resb = pdu) ∧
  (∀ s e, rtuDecode s.opb = .err e → Refuses .rtuDecode s e) ∧
  (∀ s, s.opb.length < 4 ∨ 256 < s.opb.length → Refuses .rtuDecode s .invalidDataLength)

/-- The framer's commands undo each other (R123, R124, R125; 95_test_vectors.md section 2.2): encode a PDU, load the result as
operand, decode it, and the PDU and the address come back. -/
def Obligations.FramerCommandsRoundTrip : Prop :=
  ∀ s a, PduLoaded s →
    ∃ t, exec (.rtuEncode a) s = .next t ∧
    ∃ u, execAll ((Pseudo.loadOpb t.resb).expand ++ [.rtuDecode]) t = .next u ∧
      u.resb = s.opb ∧ u.resp = some ⟨.ok, a.setWidth 32⟩ ∧ UnchangedExcept [.opb, .resb, .resp] s u

/-! RTU link unit -/

/-- R141, R142: the role commands, refused while a receive or a transmit is in progress and for a unit id outside 1 to 247. -/
def Obligations.RoleCommands : Prop :=
  EncodedAs .startMaster 0x30 0 0 ∧ (∀ u : Byte, EncodedAs (.startSlave u) 0x31 u.toNat 0) ∧
  (∀ s, s.rxState = .idle → s.pending = false →
    Answers .startMaster s .ok 0 [.role, .unitId] (fun t => t.role = .master ∧ t.unitId = 0) ∧
    ∀ u : Byte, 1 ≤ u.toNat → u.toNat ≤ 247 →
      Answers (.startSlave u) s .ok 0 [.role, .unitId] (fun t => t.role = .slave ∧ t.unitId = u)) ∧
  (∀ s, s.rxState ≠ .idle ∨ s.pending = true →
    Refuses .startMaster s .invalidValue ∧ ∀ u, Refuses (.startSlave u) s .invalidValue) ∧
  (∀ s (u : Byte), u.toNat < 1 ∨ 247 < u.toNat → Refuses (.startSlave u) s .invalidValue)

/-- R144: `RTU_LISTEN` arms an idle slave's receiver with an empty accumulator; otherwise it fails. -/
def Obligations.ListenCommand : Prop :=
  EncodedAs .rtuListen 0x32 0 0 ∧
  (∀ s, s.role = .slave → s.rxState = .idle → s.pending = false →
    Answers .rtuListen s .ok 0 [.rxState, .acc, .ovf] fun t => t.rxState = .listen ∧ t.acc = [] ∧ t.ovf = false) ∧
  (∀ s, s.role ≠ .slave ∨ s.rxState ≠ .idle ∨ s.pending = true → Refuses .rtuListen s .invalidValue)

/-- R145, R167: `RTU_SEND` frames the PDU into `TXF` and returns the frame's length. After the gap the frame is emitted in the
same step, and a master's frame to a unit other than 0 arms the receiver; before the gap the frame is pending. -/
def Obligations.SendCommand : Prop :=
  (∀ a : Byte, EncodedAs (.rtuSend a) 0x33 a.toNat 0) ∧
  (∀ s a, s.role ≠ .unset → s.rxState = .idle → s.pending = false → PduLoaded s →
    let f := rtuEncode a s.opb
    let len := BitVec.ofNat 32 f.length
    (s.tGap ≤ s.silence → ¬ (s.role = .master ∧ a ≠ 0) →
      Answers (.rtuSend a) s .ok len [.txf, .armAwait, .lineTx, .silence, .evt] fun t =>
        t.txf = f ∧ t.armAwait = false ∧ t.lineTx = s.lineTx ++ [f] ∧ t.silence = 0 ∧ t.evt = s.evt ||| 0b01000) ∧
    (s.tGap ≤ s.silence → s.role = .master → a ≠ 0 →
      Answers (.rtuSend a) s .ok len [.txf, .armAwait, .lineTx, .silence, .evt, .rxState, .acc, .ovf, .wait] fun t =>
        t.txf = f ∧ t.armAwait = false ∧ t.lineTx = s.lineTx ++ [f] ∧ t.silence = 0 ∧ t.evt = s.evt ||| 0b01000 ∧
        t.rxState = .await ∧ t.acc = [] ∧ t.ovf = false ∧ t.wait = 0) ∧
    (s.silence < s.tGap →
      Answers (.rtuSend a) s .ok len [.txf, .pending, .armAwait] fun t =>
        t.txf = f ∧ t.pending = true ∧ t.armAwait = decide (s.role = .master ∧ a ≠ 0))) ∧
  (∀ s a, s.role = .unset ∨ s.rxState ≠ .idle ∨ s.pending = true ∨ ¬ PduLoaded s → Refuses (.rtuSend a) s .invalidValue)

/-- R159: a master's broadcast is put on the line, at once or at the tick that completes the gap, sets `TX_DONE`, arms no
receive and sets no `RX_STATUS`. -/
def Obligations.BroadcastAwaitsNothing : Prop :=
  ∀ s, s.role = .master → s.rxState = .idle → s.pending = false → PduLoaded s →
    ∃ t, exec (.rtuSend 0) s = .next t ∧ t.rxState = .idle ∧ t.rxStatus = s.rxStatus ∧
      (s.tGap ≤ s.silence → t.lineTx = s.lineTx ++ [rtuEncode 0 s.opb] ∧ hasEvent .txDone t.evt = true) ∧
      (s.silence < s.tGap →
        (∀ k, s.silence.toNat + k < s.tGap.toNat → (ticks k t).lineTx = s.lineTx) ∧
        (let u := ticks (s.tGap.toNat - s.silence.toNat) t
         u.lineTx = s.lineTx ++ [rtuEncode 0 s.opb] ∧ hasEvent .txDone u.evt = true ∧ u.rxState = .idle ∧
         u.rxStatus = s.rxStatus ∧ UnchangedExcept [.silence, .pending, .armAwait, .lineTx, .evt] t u))

/-- R143: a byte from the line restarts the silence; an armed receiver accumulates it below 256 bytes and then marks the
overflow; an idle one discards it. -/
def Obligations.ByteFromTheLine : Prop :=
  (∀ s b, s.rxState = .idle → Takes (.lineRx b) s [.silence] fun t => t.silence = 0) ∧
  (∀ s b, s.rxState ≠ .idle → s.acc.length < 256 →
    Takes (.lineRx b) s [.silence, .acc] fun t =>
      t.silence = 0 ∧ t.acc.length = s.acc.length + 1 ∧ readByte .acc s.acc.length t = some b ∧
      ∀ i, i ≠ s.acc.length → readByte .acc i t = readByte .acc i s) ∧
  (∀ s b, s.rxState ≠ .idle → s.acc.length = 256 →
    Takes (.lineRx b) s [.silence, .ovf] fun t => t.silence = 0 ∧ t.ovf = true)

/-- R150, R151: where no frame ends, no response wait runs and no gap is complete, a tick only counts the silence, which
stays at its maximum. -/
def Obligations.TickCountsSilence : Prop :=
  ∀ s,
    (s.rxState = .idle ∨ (s.rxState = .listen ∧ s.acc = []) ∨ (s.acc ≠ [] ∧ satInc32 s.silence < s.tEof)) →
    (s.pending = false ∨ satInc32 s.silence < s.tGap) →
    Takes .tick s [.silence] fun t => t.silence.toNat = min (s.silence.toNat + 1) (2 ^ 32 - 1)

/-- R151: every byte from the line and every emission sets `SILENCE` to 0, a tick that emits nothing adds 1 up to 2^32-1,
and no other step but `SOFT_RESET` writes it. -/
def Obligations.SilenceCountsSinceActivity : Prop :=
  (∀ s b t, takeInput (.lineRx b) s = .next t → t.silence = 0) ∧
  (∀ s t, takeInput .tick s = .next t →
    t.silence.toNat = if t.lineTx = s.lineTx then min (s.silence.toNat + 1) (2 ^ 32 - 1) else 0) ∧
  (∀ s w t, takeInput (.command w) s = .next t →
    (t.lineTx ≠ s.lineTx → t.silence = 0) ∧
    (t.lineTx = s.lineTx → t.silence ≠ s.silence → decode w = .ok .softReset ∧ t.silence = 0))

/-- R153 to R156: at the tick that ends a frame the accumulator is emptied; an overflow or a frame that does not decode ends
the receive with the error; a frame in AWAIT, or for the slave's unit, or to unit 0 where `CFG.BCAST` is 1, is delivered; any
other frame is dropped and the slave goes on listening. -/
def Obligations.EndOfFrame : Prop :=
  ∀ s, s.rxState ≠ .idle → s.acc ≠ [] → s.tEof ≤ satInc32 s.silence → s.pending = false →
    let fails (e : Status) : Prop :=
      Takes .tick s [.silence, .acc, .ovf, .rxState, .rxStatus, .evt] fun t =>
        t.silence = satInc32 s.silence ∧ t.acc = [] ∧ t.ovf = false ∧ t.rxState = .idle ∧ t.rxStatus = e ∧
        t.evt = s.evt ||| 0b00010
    let delivers (addr : Byte) (pdu : List Byte) : Prop :=
      Takes .tick s [.silence, .acc, .ovf, .rxState, .rxStatus, .evt, .rxf, .rxAddr] fun t =>
        t.silence = satInc32 s.silence ∧ t.acc = [] ∧ t.ovf = false ∧ t.rxState = .idle ∧ t.rxStatus = .ok ∧
        t.evt = s.evt ||| 0b00001 ∧ t.rxf = pdu ∧ t.rxAddr = addr
    let drops : Prop :=
      Takes .tick s [.silence, .acc, .ovf, .evt] fun t =>
        t.silence = satInc32 s.silence ∧ t.acc = [] ∧ t.ovf = false ∧ t.evt = s.evt ||| 0b10000
    (s.ovf = true → fails .invalidDataLength) ∧
    (s.ovf = false → ∀ e, rtuDecode s.acc = .err e → fails e) ∧
    (s.ovf = false → ∀ addr pdu, rtuDecode s.acc = .ok addr pdu →
      (s.rxState = .await → delivers addr pdu) ∧
      (s.rxState = .listen → addr = s.unitId ∨ (addr = 0 ∧ s.bcast = true) → delivers addr pdu) ∧
      (s.rxState = .listen → ¬ (addr = s.unitId ∨ (addr = 0 ∧ s.bcast = true)) → drops))

/-- R157: a master that awaits a response and receives no byte ends the receive with NoResponse exactly at the tick at which
`WAIT` has counted `T_RESP`, and awaits until then; with a byte received a tick neither counts the wait nor ends it in
NoResponse; a slave that listens and receives no byte listens for ever. -/
def Obligations.ResponseTimeout : Prop :=
  (∀ s, s.rxState = .await → s.acc = [] → s.pending = false → s.wait < s.tResp →
    (∀ k, s.wait.toNat + k < s.tResp.toNat →
      (ticks k s).wait.toNat = s.wait.toNat + k ∧ UnchangedExcept [.silence, .wait] s (ticks k s)) ∧
    (let t := ticks (s.tResp.toNat - s.wait.toNat) s
     t.wait = s.tResp ∧ t.rxState = .idle ∧ t.rxStatus = .noResponse ∧ t.evt = s.evt ||| 0b00100 ∧
     UnchangedExcept [.silence, .wait, .rxState, .rxStatus, .evt] s t)) ∧
  (∀ s, s.acc ≠ [] → s.pending = false →
    (tick s).wait = s.wait ∧ hasEvent .noResp (tick s).evt = hasEvent .noResp s.evt) ∧
  (∀ s n, s.rxState = .listen → s.acc = [] → s.pending = false → UnchangedExcept [.silence] s (ticks n s))

/-- R158: a pending frame is emitted exactly at the tick at which `SILENCE` reaches `T_GAP`, and not before; a byte
received during the wait restarts it. -/
def Obligations.GapWait : Prop :=
  (∀ s, s.pending = true → s.rxState = .idle → s.silence < s.tGap →
    (∀ k, s.silence.toNat + k < s.tGap.toNat →
      (ticks k s).silence.toNat = s.silence.toNat + k ∧ UnchangedExcept [.silence] s (ticks k s)) ∧
    (let t := ticks (s.tGap.toNat - s.silence.toNat) s
     t.lineTx = s.lineTx ++ [s.txf] ∧ t.silence = 0 ∧ t.pending = false ∧ t.armAwait = false ∧
     t.evt = s.evt ||| 0b01000 ∧
     (s.armAwait = true → t.rxState = .await ∧ t.acc = [] ∧ t.ovf = false ∧ t.wait = 0) ∧
     (s.armAwait = false → t.rxState = .idle ∧ t.acc = s.acc ∧ t.ovf = s.ovf ∧ t.wait = s.wait) ∧
     UnchangedExcept [.lineTx, .silence, .pending, .armAwait, .evt, .rxState, .acc, .ovf, .wait] s t)) ∧
  (∀ s b k, s.pending = true → s.rxState = .idle → k < s.tGap.toNat → (ticks k (lineRx b s)).lineTx = s.lineTx) ∧
  (∀ s b, s.pending = true → s.rxState = .idle → s.tGap ≠ 0 →
    (ticks s.tGap.toNat (lineRx b s)).lineTx = s.lineTx ++ [s.txf])

/-- From the line to the host (R120, R143, R150 to R155): when the bytes of an RTU frame arrive at an armed, empty receiver
with fewer than `T_EOF` ticks after each byte but the last, the receiver goes on receiving until the `T_EOF`-th tick after the
last byte, and that tick delivers exactly the frame's PDU and address, or, for a slave the frame is not for, drops it. -/
def Obligations.ReceivedFrameReachesTheHost : Prop :=
  ∀ (s : State) (gaps : List (Byte × Nat)) (last addr : Byte) (pdu : List Byte),
    s.rxState ≠ .idle → s.acc = [] → s.ovf = false → s.pending = false → s.tEof ≠ 0 →
    1 ≤ pdu.length → pdu.length ≤ 253 →
    gaps.map Prod.fst ++ [last] = rtuEncode addr pdu → (∀ g ∈ gaps, g.2 < s.tEof.toNat) →
    let r := lineRx last (receive gaps s)
    (∀ k, k < s.tEof.toNat →
      (ticks k r).acc = rtuEncode addr pdu ∧ UnchangedExcept [.acc, .silence] s (ticks k r)) ∧
    (let t := ticks s.tEof.toNat r
     (acceptsAddress addr s = true →
       t.rxState = .idle ∧ t.rxStatus = .ok ∧ t.rxf = pdu ∧ t.rxAddr = addr ∧ t.acc = [] ∧ t.evt = s.evt ||| 0b00001) ∧
     (acceptsAddress addr s = false →
       t.acc = [] ∧ t.evt = s.evt ||| 0b10000 ∧ UnchangedExcept [.silence, .evt] s t))

/-- R168, an inference the spec marks as derived from R141 to R159 and R221: from every state with the invariant, a step leaves
the receiver, the transmitter and the line as they are or makes one of the table's moves, and it never leads to (LISTEN, 1) or
(AWAIT, 1); power-on reset is (IDLE, 0). -/
def Obligations.LinkMovesAreTheTables : Prop :=
  (∀ s a t, MachineInv s → takeInput a s = .next t →
    ((t.rxState = s.rxState ∧ t.pending = s.pending ∧ t.lineTx = s.lineTx) ∨ LinkMove s t a) ∧
    ¬ (t.pending = true ∧ t.rxState ≠ .idle)) ∧
  State.reset.rxState = .idle ∧ State.reset.pending = false

/-! MBAP unit -/

/-- R193, R194 with R190 and R191: the encoders put the 7-byte big-endian header and the PDU in the result buffer.
`MBAP_FORMAT` takes its id from the operand and returns the length; `MBAP_ENCODE` takes the counter's value, returns it and
increments the counter mod 2^16. -/
def Obligations.MbapEncoders : Prop :=
  (∀ (u : Byte) (t : Half), EncodedAs (.mbapFormat u t) 0x40 u.toNat t.toNat) ∧
  (∀ u : Byte, EncodedAs (.mbapEncode u) 0x41 u.toNat 0) ∧
  (∀ s (u : Byte) (id : Half), PduLoaded s →
    let n := 1 + s.opb.length
    let frame (x : Half) : List Byte :=
      [BitVec.ofNat 8 (x.toNat / 256), BitVec.ofNat 8 (x.toNat % 256), 0, 0, BitVec.ofNat 8 (n / 256),
        BitVec.ofNat 8 (n % 256), u] ++ s.opb
    Answers (.mbapFormat u id) s .ok (BitVec.ofNat 32 (s.opb.length + 7)) [.resb] (fun t => t.resb = frame id) ∧
    Answers (.mbapEncode u) s .ok (s.txn.setWidth 32) [.resb, .txn] (fun t =>
      t.resb = frame s.txn ∧ t.txn.toNat = (s.txn.toNat + 1) % 2 ^ 16)) ∧
  (∀ s (u : Byte) (id : Half), ¬ PduLoaded s →
    Refuses (.mbapFormat u id) s .invalidValue ∧ Refuses (.mbapEncode u) s .invalidValue)

/-- R192: the outcomes of `MbapParse`, in the order header, protocol id, `length` range, body, overshoot. -/
def Obligations.MbapParseOutcomes : Prop :=
  (∀ buf : List Byte, buf.length < 7 → mbapParse buf = .tooShort) ∧
  (∀ (t1 t0 p1 p0 l1 l0 u : Byte) (body : List Byte),
    let buf := t1 :: t0 :: p1 :: p0 :: l1 :: l0 :: u :: body
    let len := l1.toNat * 256 + l0.toNat
    mbapParse buf =
      if p1.toNat * 256 + p0.toNat ≠ 0 then .err .invalidData
      else if len < 2 ∨ 254 < len then .err .invalidDataLength
      else if buf.length < 6 + len then .tooShort
      else if 6 + len < buf.length then .err .invalidDataLength
      else .frame (BitVec.ofNat 16 (t1.toNat * 256 + t0.toNat)) u body)

/-- R195: `MBAP_PARSE` puts the PDU in the result buffer and returns the transaction id and the unit id; otherwise it answers
`TooShortData` or the error and writes nothing. -/
def Obligations.MbapParseCommand : Prop :=
  EncodedAs .mbapParse 0x42 0 0 ∧
  (∀ s (id : Half) (u : Byte) pdu, mbapParse s.opb = .frame id u pdu →
    Answers .mbapParse s .ok (BitVec.ofNat 32 (id.toNat * 2 ^ 16 + u.toNat)) [.resb] fun t => t.resb = pdu) ∧
  (∀ s, mbapParse s.opb = .tooShort → Answers .mbapParse s .tooShortData 0 [] fun _ => True) ∧
  (∀ s e, mbapParse s.opb = .err e → Refuses .mbapParse s e)

/-- R196, R197: `MBAP_PUSH` appends a byte and parses the stream so far: the byte is kept while the frame is incomplete, the
stream buffer is emptied at a frame and at an error; `MBAP_STREAM_CLEAR` empties it. -/
def Obligations.MbapStreamCommands : Prop :=
  (∀ b : Byte, EncodedAs (.mbapPush b) 0x43 b.toNat 0) ∧ EncodedAs .mbapStreamClear 0x44 0 0 ∧
  (∀ s b, s.mrx.length < 260 →
    (mbapParse (s.mrx ++ [b]) = .tooShort →
      Answers (.mbapPush b) s .tooShortData 0 [.mrx] fun t => t.mrx = s.mrx ++ [b]) ∧
    (∀ e, mbapParse (s.mrx ++ [b]) = .err e → Answers (.mbapPush b) s e 0 [.mrx] fun t => t.mrx = []) ∧
    (∀ (id : Half) (u : Byte) pdu, mbapParse (s.mrx ++ [b]) = .frame id u pdu →
      Answers (.mbapPush b) s .ok (BitVec.ofNat 32 (id.toNat * 2 ^ 16 + u.toNat)) [.mrx, .resb] fun t =>
        t.mrx = [] ∧ t.resb = pdu)) ∧
  (∀ s b, s.mrx.length = 260 → Refuses (.mbapPush b) s .invalidValue) ∧
  (∀ s, Answers .mbapStreamClear s .ok 0 [.mrx] fun t => t.mrx = [])

/-- R199, an inference the spec marks as derived from R191, R192 and R196: parsing what `MbapFormat` made of an id, a unit and a legal PDU gives them back; and pushing its bytes one by one
into an empty stream buffer answers `TooShortData` for every byte but the last and the frame at the last. -/
def Obligations.MbapRoundTripAndStream : Prop :=
  ∀ (id : Half) (u : Byte) (p : List Byte), 1 ≤ p.length → p.length ≤ 253 →
    mbapParse (mbapFormat id u p) = .frame id u p ∧
    ∀ s, s.mrx = [] →
      (∀ k, 0 < k → k < (mbapFormat id u p).length →
        ∃ t, execAll (((mbapFormat id u p).take k).map .mbapPush) s = .next t ∧ t.resp = some ⟨.tooShortData, 0⟩ ∧
          t.mrx = (mbapFormat id u p).take k ∧ t.resb = s.resb) ∧
      (∃ t, execAll ((mbapFormat id u p).map .mbapPush) s = .next t ∧
        t.resp = some ⟨.ok, BitVec.ofNat 32 (id.toNat * 2 ^ 16 + u.toNat)⟩ ∧ t.mrx = [] ∧ t.resb = p ∧
        UnchangedExcept [.resp, .resb] s t)

/-- R198: `MBAP_ENCODE` frames with the counter's value and writes back that value plus 1 mod 2^16; nothing else changes the
counter but `CSR_WRITE TXN`. -/
def Obligations.TxnChangesOnlyBy : Prop :=
  (∀ s u, PduLoaded s → ∃ t, exec (.mbapEncode u) s = .next t ∧ t.resb = mbapFormat s.txn u s.opb ∧
    t.txn.toNat = (s.txn.toNat + 1) % 2 ^ 16) ∧
  (∀ s a t, takeInput a s = .next t → t.txn ≠ s.txn →
    ∃ w, a = .command w ∧
      ((∃ u, decode w = .ok (.mbapEncode u) ∧ PduLoaded s) ∨
       (∃ v, decode w = .ok (.csrWrite 0x0E v) ∧ t.txn.toNat = v.toNat % 2 ^ 16)))

/-- R78, an inference the spec marks as derived from R73 and R198: successive `MBAP_ENCODE`s, whatever their units, return distinct ids until 65536 of them have wrapped the counter. -/
def Obligations.EncodesGetDistinctIds : Prop :=
  ∀ (s : State), PduLoaded s →
    (∀ (us : List Byte) (u : Byte),
      ∃ t, execAll (us.map .mbapEncode ++ [.mbapEncode u]) s = .next t ∧
        t.resp = some ⟨.ok, (s.txn + BitVec.ofNat 16 us.length).setWidth 32⟩ ∧ t.opb = s.opb) ∧
    (∀ i j, i < 65536 → j < 65536 → i ≠ j →
      (s.txn + BitVec.ofNat 16 i).setWidth 32 ≠ (s.txn + BitVec.ofNat 16 j).setWidth 32)

/-! The whole machine -/

/-- The frame of every input at once (R24 to R45, R61 to R66, R73, R74, R101): a command, a byte or a tick changes no field
but those its rule writes, in any state, and every byte of the other buffers reads as before; in particular the reads change
nothing but the port's output. -/
def Obligations.InputsWriteOnlyTheirFields : Prop :=
  ∀ s a t, takeInput a s = .next t →
    UnchangedExcept (inputWrites a) s t ∧
    ∀ b i, bufferField b ∉ inputWrites a → readByte b i t = readByte b i s

/-- R252: a command that returns a status other than OK and TooShortData, an illegal or reserved word among them, writes no
state and returns data 0, except that `MBAP_PUSH` empties the stream buffer with InvalidData and InvalidDataLength; and every
input has an outcome. -/
def Obligations.FailingCommandsWriteNothing : Prop :=
  (∀ w s t st d, takeInput (.command w) s = .next t → t.resp = some ⟨st, d⟩ → st ≠ .ok → st ≠ .tooShortData →
    d = 0 ∧
    (UnchangedExcept [.resp] s t ∨
      ((∃ b, decode w = .ok (.mbapPush b)) ∧ (st = .invalidData ∨ st = .invalidDataLength) ∧
        UnchangedExcept [.resp, .mrx] s t ∧ t.mrx = []))) ∧
  (∀ a s, ∃ t, takeInput a s = .next t)

/-- R250, R251: the statuses a command returns are OK, InvalidValue, TooShortData (from the MBAP parsers only) and InvalidData
and InvalidDataLength (from `RTU_DECODE` and the MBAP parsers only); the codes 5 to 15 are never returned. -/
def Obligations.ReturnedStatuses : Prop :=
  ∀ i s, ∃ t st d, exec i s = .next t ∧ t.resp = some ⟨st, d⟩ ∧
    (st = .ok ∨ st = .invalidValue ∨
      (st = .tooShortData ∧ d = 0 ∧ (i = .mbapParse ∨ ∃ b, i = .mbapPush b ∧ t.mrx = s.mrx ++ [b])) ∨
      ((st = .invalidData ∨ st = .invalidDataLength) ∧ (i = .rtuDecode ∨ i = .mbapParse ∨ ∃ b, i = .mbapPush b)))

/-- R256: an event's bit is set by its own kind of step and by no other, and once set it is cleared only by a write of 1 to it
or by `SOFT_RESET`. -/
def Obligations.EventBitsAreSticky : Prop :=
  ∀ s a t e, MachineInv s → takeInput a s = .next t →
    (EventCause e a s t → hasEvent e t.evt = true) ∧
    (hasEvent e s.evt = false → hasEvent e t.evt = true → EventCause e a s t) ∧
    (hasEvent e s.evt = true → hasEvent e t.evt = false →
      ∃ w, a = .command w ∧
        (decode w = .ok .softReset ∨ ∃ v : Word, decode w = .ok (.csrWrite 0x13 v) ∧ v.getLsbD (eventBit e) = true))

/-- R257: `irq` is 1 exactly when an event is set and enabled. -/
def Obligations.IrqIsTheEnabledEvents : Prop :=
  ∀ s, irq s = true ↔ ∃ e, hasEvent e s.evt = true ∧ hasEvent e s.ie = true

/-- The records of the block's outputs are never read (log 2, from R48 and R73): two states that differ only in them take
every input alike, return the same and emit the same. -/
def Obligations.OutputRecordsAreNeverRead : Prop :=
  ∀ s s' a t, UnchangedExcept [.resp, .lineTx] s s' → takeInput a s = .next t →
    ∃ t' sent, takeInput a s' = .next t' ∧ UnchangedExcept [.resp, .lineTx] t t' ∧
      t.lineTx = s.lineTx ++ sent ∧ t'.lineTx = s'.lineTx ++ sent ∧ (t.resp = t'.resp ∨ (t.resp = s.resp ∧ t'.resp = s'.resp))

/-- R94: `LOADOPB` of at most 260 bytes leaves exactly those bytes in the operand buffer and changes nothing else; the other
pseudo-commands are the commands they expand to. -/
def Obligations.PseudoCommands : Prop :=
  (∀ bytes : List Byte, (Pseudo.loadOpb bytes).expand = .opbClear :: bytes.map .opbPush ∧
    ((Pseudo.loadOpb bytes).wellFormed = true ↔ bytes.length ≤ 260)) ∧
  (∀ s (bytes : List Byte), bytes.length ≤ 260 →
    ∃ t, execAll (Pseudo.loadOpb bytes).expand s = .next t ∧ t.opb = bytes ∧ UnchangedExcept [.opb, .resp] s t) ∧
  (∀ v : Word, (Pseudo.clrEvt v).expand = [.csrWrite (csrNumber .evt) v] ∧
    (Pseudo.setTxn v).expand = [.csrWrite (csrNumber .txn) v] ∧ (Pseudo.setIe v).expand = [.csrWrite (csrNumber .ie) v]) ∧
  (∀ n : Nat, n ≤ 2 ^ 32 →
    (Pseudo.readRes n).expand.length = n ∧ (Pseudo.readRxf n).expand.length = n ∧
    ∀ k, k < n → (Pseudo.readRes n).expand[k]? = some (.resRead (BitVec.ofNat 32 k)) ∧
      (Pseudo.readRxf n).expand[k]? = some (.rxfRead (BitVec.ofNat 32 k)))

/-! Real time -/

/-- From R160, which the spec marks as derived from R150 and R151: with a tick at every time t0 + n·T and the last byte between the ticks j and j+1, the k-th tick after the byte finds
`SILENCE` = k, and the real silence is then in ((k-1)·T, k·T]. (Time is counted in an integral unit, log 5.) -/
def Obligations.SilenceInRealTime : Prop :=
  ∀ (s : State) (b : Byte) (period t0 j k x : Nat), s.pending = false → 1 ≤ k → k < 2 ^ 32 →
    t0 + j * period ≤ x → x < t0 + (j + 1) * period →
    (ticks k (lineRx b s)).silence.toNat = k ∧
    (k - 1) * period < t0 + (j + k) * period - x ∧ t0 + (j + k) * period - x ≤ k * period

/-- From R284 and R285, which the spec marks as derived from R160, in the setting of R160: a tick at every time t0 + n·T, the byte b
at the time x between the ticks j and j+1, so that the k-th tick after b comes after a real silence of t0 + (j+k)·T - x. With
`T_EOF` in its window for the character time C: some tick ends the frame that b belongs to, every earlier one leaves it whole, and
that tick comes after more than C of silence, so back-to-back bytes are not cut, and after at most 1.5 C; and the window has room only if T ≤ C/2. With `T_GAP`
in its window for the gap G: some tick emits a frame pending when b came, none before it does, and it comes after more than G of silence; and an
`RTU_SEND` at a time y, k ticks after b, that emits at once does so after more than G. (Time is counted in an integral unit,
log 5.) -/
def Obligations.TimingWindows : Prop :=
  ∀ (s : State) (b : Byte) (period t0 j x : Nat), t0 + j * period ≤ x → x < t0 + (j + 1) * period →
    let r := lineRx b s
    let since (k : Nat) : Nat := t0 + (j + k) * period - x
    (∀ char, s.rxState ≠ .idle → s.pending = false → s.tEof ≠ 0 → EofWindow period char s.tEof →
      2 * period ≤ char ∧
      ∃ k, r.acc ≠ [] ∧ (∀ i, i ≤ k → (ticks i r).acc = r.acc) ∧ (ticks (k + 1) r).acc = [] ∧
        char < since (k + 1) ∧ 2 * since (k + 1) ≤ 3 * char) ∧
    (∀ gap, s.rxState = .idle → s.pending = true → GapWindow period gap s.tGap →
      ∃ k, (∀ i, i ≤ k → (ticks i r).lineTx = s.lineTx) ∧ (ticks (k + 1) r).lineTx = s.lineTx ++ [s.txf] ∧
        gap < since (k + 1)) ∧
    (∀ gap k y a t, s.pending = false → GapWindow period gap s.tGap → t0 + (j + k) * period ≤ y → x < y →
      exec (.rtuSend a) (ticks k r) = .next t → t.lineTx ≠ s.lineTx → gap < y - x)

/-- R291, an inference the spec marks as derived from R150 and R226: a timing register written in the middle of an operation acts at the next tick: a `T_RESP` at or below the time
waited ends the wait, a `T_EOF` at or below the silence ends the frame, a `T_GAP` at or below the silence ends the gap. -/
def Obligations.TimersActAtTheNextTick : Prop :=
  (∀ s (v : Word), s.rxState = .await → s.acc = [] → s.pending = false → v ≠ 0 → v ≤ s.wait →
    ∃ t, exec (.csrWrite 0x08 v) s = .next t ∧ (tick t).rxState = .idle ∧ (tick t).rxStatus = .noResponse) ∧
  (∀ s (v : Word), s.rxState ≠ .idle → s.acc ≠ [] → s.pending = false → v ≠ 0 → v ≤ s.silence →
    ∃ t, exec (.csrWrite 0x06 v) s = .next t ∧ (tick t).acc = []) ∧
  (∀ s (v : Word), s.rxState = .idle → s.pending = true → v ≤ s.silence →
    ∃ t, exec (.csrWrite 0x07 v) s = .next t ∧ (tick t).lineTx = s.lineTx ++ [s.txf])
end

