-- ==== Sys2Proof/Laws/Encoding.lean ====
section
/-! SUPPORT. The fields of a command word and the bits a mask keeps of it (spec/30_encoding.md R81, R83). -/

namespace Sys2Proof

@[simp] theorem opField_commandWord (op a : Byte) (b : Word) : opField (commandWord op a b) = op := by
  ext i hi
  simp only [opField, commandWord, BitVec.getElem_extractLsb', BitVec.getLsbD_append]
  have : 56 + i - 32 - 16 - 8 = i := by omega
  simp [show ¬ 56 + i < 32 by omega, show ¬ 56 + i - 32 < 16 by omega, show ¬ 56 + i - 32 - 16 < 8 by omega, this,
    BitVec.getLsbD_eq_getElem hi]

@[simp] theorem aField_commandWord (op a : Byte) (b : Word) : aField (commandWord op a b) = a := by
  ext i hi
  simp only [aField, commandWord, BitVec.getElem_extractLsb', BitVec.getLsbD_append]
  have : 48 + i - 32 - 16 = i := by omega
  simp [show ¬ 48 + i < 32 by omega, show ¬ 48 + i - 32 < 16 by omega, this, hi]

@[simp] theorem zField_commandWord (op a : Byte) (b : Word) : zField (commandWord op a b) = 0 := by
  ext i hi
  simp only [zField, commandWord, BitVec.getElem_extractLsb', BitVec.getLsbD_append]
  simp [show ¬ 32 + i < 32 by omega, hi]

@[simp] theorem bField_commandWord (op a : Byte) (b : Word) : bField (commandWord op a b) = b := by
  ext i hi
  simp only [bField, commandWord, BitVec.getElem_extractLsb', BitVec.getLsbD_append]
  simp [hi]

@[simp] theorem txnOperand_setWidth (t : Half) : txnOperand (t.setWidth 32) = t := by
  ext i hi
  simp [txnOperand, BitVec.getLsbD_eq_getElem hi, show i < 32 by omega]

@[simp] theorem txnReserved_setWidth (t : Half) : txnReserved (t.setWidth 32) = 0 := by
  ext i hi
  simp [txnReserved]

/-- A mask made of four fields keeps of a word what each part keeps of its field. -/
theorem commandWord_and (op a mo ma : Byte) (mz : Half) (b mb : Word) :
    commandWord op a b &&& (mo ++ ma ++ mz ++ mb : BitVec (8 + 8 + 16 + 32)) =
      ((op &&& mo) ++ (a &&& ma) ++ (0 &&& mz : Half) ++ (b &&& mb) : BitVec (8 + 8 + 16 + 32)) := by
  unfold commandWord
  rw [← BitVec.and_append, ← BitVec.and_append, ← BitVec.and_append]

theorem selects_none {m : String} (op : Byte) :
    (Row.mk m (commandWord op 0 0) 0xFFFFFFFFFFFFFFFF).selects (commandWord op 0 0) = true := by
  simp only [Row.selects, beq_iff_eq]
  exact BitVec.and_allOnes

theorem selects_a {m : String} (op x : Byte) :
    (Row.mk m (commandWord op 0 0) 0xFF00FFFFFFFFFFFF).selects (commandWord op x 0) = true := by
  simp only [Row.selects, beq_iff_eq]
  refine (commandWord_and op x 0xFF 0x00 0xFFFF 0 0xFFFFFFFF).trans ?_
  rw [show op &&& 0xFF = op from BitVec.and_allOnes, show x &&& 0x00 = 0 from BitVec.and_zero]
  rfl

theorem selects_b {m : String} (op : Byte) (x : Word) :
    (Row.mk m (commandWord op 0 0) 0xFFFFFFFF00000000).selects (commandWord op 0 x) = true := by
  simp only [Row.selects, beq_iff_eq]
  refine (commandWord_and op 0 0xFF 0xFF 0xFFFF x 0).trans ?_
  rw [show op &&& 0xFF = op from BitVec.and_allOnes, show x &&& 0 = 0 from BitVec.and_zero]
  rfl

theorem selects_ab {m : String} (op x : Byte) (y : Word) :
    (Row.mk m (commandWord op 0 0) 0xFF00FFFF00000000).selects (commandWord op x y) = true := by
  simp only [Row.selects, beq_iff_eq]
  refine (commandWord_and op x 0xFF 0x00 0xFFFF y 0).trans ?_
  rw [show op &&& 0xFF = op from BitVec.and_allOnes, show x &&& 0x00 = 0 from BitVec.and_zero,
    show y &&& 0 = 0 from BitVec.and_zero]
  rfl

theorem setWidth_and_high (t : Half) : t.setWidth 32 &&& (0xFFFF0000 : Word) = 0 := by
  have ht : t.setWidth 32 = (0#16 ++ t : BitVec (16 + 16)) := by
    apply BitVec.eq_of_toNat_eq
    rw [BitVec.toNat_append]
    have := t.isLt
    simp
    omega
  rw [ht]
  refine (BitVec.and_append (x₁ := 0#16) (x₂ := 0xFFFF#16) (y₁ := t) (y₂ := 0#16)).trans ?_
  rw [BitVec.and_zero]
  rfl

theorem selects_aTxn {m : String} (op x : Byte) (t : Half) :
    (Row.mk m (commandWord op 0 0) 0xFF00FFFFFFFF0000).selects (commandWord op x (t.setWidth 32)) = true := by
  simp only [Row.selects, beq_iff_eq]
  refine (commandWord_and op x 0xFF 0x00 0xFFFF (t.setWidth 32) 0xFFFF0000).trans ?_
  rw [show op &&& 0xFF = op from BitVec.and_allOnes, show x &&& 0x00 = 0 from BitVec.and_zero, setWidth_and_high]
  rfl

end Sys2Proof
end

