-- ==== Sys2Proof/Laws/State.lean ====
section
/-! SUPPORT. One lemma per field and per named update of the state, so that no proof unfolds an update again. -/

namespace Sys2Proof.Machine

@[simp] theorem respond_crc (st : Status) (d : Word) (s : State) : (respond st d s).crc = s.crc := rfl
@[simp] theorem respond_role (st : Status) (d : Word) (s : State) : (respond st d s).role = s.role := rfl
@[simp] theorem respond_unitId (st : Status) (d : Word) (s : State) : (respond st d s).unitId = s.unitId := rfl
@[simp] theorem respond_rxState (st : Status) (d : Word) (s : State) : (respond st d s).rxState = s.rxState := rfl
@[simp] theorem respond_pending (st : Status) (d : Word) (s : State) : (respond st d s).pending = s.pending := rfl
@[simp] theorem respond_armAwait (st : Status) (d : Word) (s : State) : (respond st d s).armAwait = s.armAwait := rfl
@[simp] theorem respond_rxStatus (st : Status) (d : Word) (s : State) : (respond st d s).rxStatus = s.rxStatus := rfl
@[simp] theorem respond_tEof (st : Status) (d : Word) (s : State) : (respond st d s).tEof = s.tEof := rfl
@[simp] theorem respond_tGap (st : Status) (d : Word) (s : State) : (respond st d s).tGap = s.tGap := rfl
@[simp] theorem respond_tResp (st : Status) (d : Word) (s : State) : (respond st d s).tResp = s.tResp := rfl
@[simp] theorem respond_silence (st : Status) (d : Word) (s : State) : (respond st d s).silence = s.silence := rfl
@[simp] theorem respond_wait (st : Status) (d : Word) (s : State) : (respond st d s).wait = s.wait := rfl
@[simp] theorem respond_acc (st : Status) (d : Word) (s : State) : (respond st d s).acc = s.acc := rfl
@[simp] theorem respond_ovf (st : Status) (d : Word) (s : State) : (respond st d s).ovf = s.ovf := rfl
@[simp] theorem respond_rxf (st : Status) (d : Word) (s : State) : (respond st d s).rxf = s.rxf := rfl
@[simp] theorem respond_rxAddr (st : Status) (d : Word) (s : State) : (respond st d s).rxAddr = s.rxAddr := rfl
@[simp] theorem respond_txf (st : Status) (d : Word) (s : State) : (respond st d s).txf = s.txf := rfl
@[simp] theorem respond_txn (st : Status) (d : Word) (s : State) : (respond st d s).txn = s.txn := rfl
@[simp] theorem respond_mrx (st : Status) (d : Word) (s : State) : (respond st d s).mrx = s.mrx := rfl
@[simp] theorem respond_opb (st : Status) (d : Word) (s : State) : (respond st d s).opb = s.opb := rfl
@[simp] theorem respond_resb (st : Status) (d : Word) (s : State) : (respond st d s).resb = s.resb := rfl
@[simp] theorem respond_evt (st : Status) (d : Word) (s : State) : (respond st d s).evt = s.evt := rfl
@[simp] theorem respond_ie (st : Status) (d : Word) (s : State) : (respond st d s).ie = s.ie := rfl
@[simp] theorem respond_bcast (st : Status) (d : Word) (s : State) : (respond st d s).bcast = s.bcast := rfl
@[simp] theorem respond_inputs (st : Status) (d : Word) (s : State) : (respond st d s).inputs = s.inputs := rfl
@[simp] theorem respond_resp (st : Status) (d : Word) (s : State) : (respond st d s).resp = some ⟨st, d⟩ := rfl
@[simp] theorem respond_lineTx (st : Status) (d : Word) (s : State) : (respond st d s).lineTx = s.lineTx := rfl

@[simp] theorem signal_crc (e : Event) (s : State) : (signal e s).crc = s.crc := rfl
@[simp] theorem signal_role (e : Event) (s : State) : (signal e s).role = s.role := rfl
@[simp] theorem signal_unitId (e : Event) (s : State) : (signal e s).unitId = s.unitId := rfl
@[simp] theorem signal_rxState (e : Event) (s : State) : (signal e s).rxState = s.rxState := rfl
@[simp] theorem signal_pending (e : Event) (s : State) : (signal e s).pending = s.pending := rfl
@[simp] theorem signal_armAwait (e : Event) (s : State) : (signal e s).armAwait = s.armAwait := rfl
@[simp] theorem signal_rxStatus (e : Event) (s : State) : (signal e s).rxStatus = s.rxStatus := rfl
@[simp] theorem signal_tEof (e : Event) (s : State) : (signal e s).tEof = s.tEof := rfl
@[simp] theorem signal_tGap (e : Event) (s : State) : (signal e s).tGap = s.tGap := rfl
@[simp] theorem signal_tResp (e : Event) (s : State) : (signal e s).tResp = s.tResp := rfl
@[simp] theorem signal_silence (e : Event) (s : State) : (signal e s).silence = s.silence := rfl
@[simp] theorem signal_wait (e : Event) (s : State) : (signal e s).wait = s.wait := rfl
@[simp] theorem signal_acc (e : Event) (s : State) : (signal e s).acc = s.acc := rfl
@[simp] theorem signal_ovf (e : Event) (s : State) : (signal e s).ovf = s.ovf := rfl
@[simp] theorem signal_rxf (e : Event) (s : State) : (signal e s).rxf = s.rxf := rfl
@[simp] theorem signal_rxAddr (e : Event) (s : State) : (signal e s).rxAddr = s.rxAddr := rfl
@[simp] theorem signal_txf (e : Event) (s : State) : (signal e s).txf = s.txf := rfl
@[simp] theorem signal_txn (e : Event) (s : State) : (signal e s).txn = s.txn := rfl
@[simp] theorem signal_mrx (e : Event) (s : State) : (signal e s).mrx = s.mrx := rfl
@[simp] theorem signal_opb (e : Event) (s : State) : (signal e s).opb = s.opb := rfl
@[simp] theorem signal_resb (e : Event) (s : State) : (signal e s).resb = s.resb := rfl
@[simp] theorem signal_evt (e : Event) (s : State) : (signal e s).evt = s.evt ||| eventMask e := rfl
@[simp] theorem signal_ie (e : Event) (s : State) : (signal e s).ie = s.ie := rfl
@[simp] theorem signal_bcast (e : Event) (s : State) : (signal e s).bcast = s.bcast := rfl
@[simp] theorem signal_inputs (e : Event) (s : State) : (signal e s).inputs = s.inputs := rfl
@[simp] theorem signal_resp (e : Event) (s : State) : (signal e s).resp = s.resp := rfl
@[simp] theorem signal_lineTx (e : Event) (s : State) : (signal e s).lineTx = s.lineTx := rfl

@[simp] theorem clearEvents_crc (v : BitVec 5) (s : State) : (clearEvents v s).crc = s.crc := rfl
@[simp] theorem clearEvents_role (v : BitVec 5) (s : State) : (clearEvents v s).role = s.role := rfl
@[simp] theorem clearEvents_unitId (v : BitVec 5) (s : State) : (clearEvents v s).unitId = s.unitId := rfl
@[simp] theorem clearEvents_rxState (v : BitVec 5) (s : State) : (clearEvents v s).rxState = s.rxState := rfl
@[simp] theorem clearEvents_pending (v : BitVec 5) (s : State) : (clearEvents v s).pending = s.pending := rfl
@[simp] theorem clearEvents_armAwait (v : BitVec 5) (s : State) : (clearEvents v s).armAwait = s.armAwait := rfl
@[simp] theorem clearEvents_rxStatus (v : BitVec 5) (s : State) : (clearEvents v s).rxStatus = s.rxStatus := rfl
@[simp] theorem clearEvents_tEof (v : BitVec 5) (s : State) : (clearEvents v s).tEof = s.tEof := rfl
@[simp] theorem clearEvents_tGap (v : BitVec 5) (s : State) : (clearEvents v s).tGap = s.tGap := rfl
@[simp] theorem clearEvents_tResp (v : BitVec 5) (s : State) : (clearEvents v s).tResp = s.tResp := rfl
@[simp] theorem clearEvents_silence (v : BitVec 5) (s : State) : (clearEvents v s).silence = s.silence := rfl
@[simp] theorem clearEvents_wait (v : BitVec 5) (s : State) : (clearEvents v s).wait = s.wait := rfl
@[simp] theorem clearEvents_acc (v : BitVec 5) (s : State) : (clearEvents v s).acc = s.acc := rfl
@[simp] theorem clearEvents_ovf (v : BitVec 5) (s : State) : (clearEvents v s).ovf = s.ovf := rfl
@[simp] theorem clearEvents_rxf (v : BitVec 5) (s : State) : (clearEvents v s).rxf = s.rxf := rfl
@[simp] theorem clearEvents_rxAddr (v : BitVec 5) (s : State) : (clearEvents v s).rxAddr = s.rxAddr := rfl
@[simp] theorem clearEvents_txf (v : BitVec 5) (s : State) : (clearEvents v s).txf = s.txf := rfl
@[simp] theorem clearEvents_txn (v : BitVec 5) (s : State) : (clearEvents v s).txn = s.txn := rfl
@[simp] theorem clearEvents_mrx (v : BitVec 5) (s : State) : (clearEvents v s).mrx = s.mrx := rfl
@[simp] theorem clearEvents_opb (v : BitVec 5) (s : State) : (clearEvents v s).opb = s.opb := rfl
@[simp] theorem clearEvents_resb (v : BitVec 5) (s : State) : (clearEvents v s).resb = s.resb := rfl
@[simp] theorem clearEvents_evt (v : BitVec 5) (s : State) : (clearEvents v s).evt = s.evt &&& ~~~ v := rfl
@[simp] theorem clearEvents_ie (v : BitVec 5) (s : State) : (clearEvents v s).ie = s.ie := rfl
@[simp] theorem clearEvents_bcast (v : BitVec 5) (s : State) : (clearEvents v s).bcast = s.bcast := rfl
@[simp] theorem clearEvents_inputs (v : BitVec 5) (s : State) : (clearEvents v s).inputs = s.inputs := rfl
@[simp] theorem clearEvents_resp (v : BitVec 5) (s : State) : (clearEvents v s).resp = s.resp := rfl
@[simp] theorem clearEvents_lineTx (v : BitVec 5) (s : State) : (clearEvents v s).lineTx = s.lineTx := rfl

@[simp] theorem setResult_crc (bytes : List Byte) (s : State) : (setResult bytes s).crc = s.crc := rfl
@[simp] theorem setResult_role (bytes : List Byte) (s : State) : (setResult bytes s).role = s.role := rfl
@[simp] theorem setResult_unitId (bytes : List Byte) (s : State) : (setResult bytes s).unitId = s.unitId := rfl
@[simp] theorem setResult_rxState (bytes : List Byte) (s : State) : (setResult bytes s).rxState = s.rxState := rfl
@[simp] theorem setResult_pending (bytes : List Byte) (s : State) : (setResult bytes s).pending = s.pending := rfl
@[simp] theorem setResult_armAwait (bytes : List Byte) (s : State) : (setResult bytes s).armAwait = s.armAwait := rfl
@[simp] theorem setResult_rxStatus (bytes : List Byte) (s : State) : (setResult bytes s).rxStatus = s.rxStatus := rfl
@[simp] theorem setResult_tEof (bytes : List Byte) (s : State) : (setResult bytes s).tEof = s.tEof := rfl
@[simp] theorem setResult_tGap (bytes : List Byte) (s : State) : (setResult bytes s).tGap = s.tGap := rfl
@[simp] theorem setResult_tResp (bytes : List Byte) (s : State) : (setResult bytes s).tResp = s.tResp := rfl
@[simp] theorem setResult_silence (bytes : List Byte) (s : State) : (setResult bytes s).silence = s.silence := rfl
@[simp] theorem setResult_wait (bytes : List Byte) (s : State) : (setResult bytes s).wait = s.wait := rfl
@[simp] theorem setResult_acc (bytes : List Byte) (s : State) : (setResult bytes s).acc = s.acc := rfl
@[simp] theorem setResult_ovf (bytes : List Byte) (s : State) : (setResult bytes s).ovf = s.ovf := rfl
@[simp] theorem setResult_rxf (bytes : List Byte) (s : State) : (setResult bytes s).rxf = s.rxf := rfl
@[simp] theorem setResult_rxAddr (bytes : List Byte) (s : State) : (setResult bytes s).rxAddr = s.rxAddr := rfl
@[simp] theorem setResult_txf (bytes : List Byte) (s : State) : (setResult bytes s).txf = s.txf := rfl
@[simp] theorem setResult_txn (bytes : List Byte) (s : State) : (setResult bytes s).txn = s.txn := rfl
@[simp] theorem setResult_mrx (bytes : List Byte) (s : State) : (setResult bytes s).mrx = s.mrx := rfl
@[simp] theorem setResult_opb (bytes : List Byte) (s : State) : (setResult bytes s).opb = s.opb := rfl
@[simp] theorem setResult_resb (bytes : List Byte) (s : State) : (setResult bytes s).resb = bytes := rfl
@[simp] theorem setResult_evt (bytes : List Byte) (s : State) : (setResult bytes s).evt = s.evt := rfl
@[simp] theorem setResult_ie (bytes : List Byte) (s : State) : (setResult bytes s).ie = s.ie := rfl
@[simp] theorem setResult_bcast (bytes : List Byte) (s : State) : (setResult bytes s).bcast = s.bcast := rfl
@[simp] theorem setResult_inputs (bytes : List Byte) (s : State) : (setResult bytes s).inputs = s.inputs := rfl
@[simp] theorem setResult_resp (bytes : List Byte) (s : State) : (setResult bytes s).resp = s.resp := rfl
@[simp] theorem setResult_lineTx (bytes : List Byte) (s : State) : (setResult bytes s).lineTx = s.lineTx := rfl

@[simp] theorem softReset_crc (s : State) : (softReset s).crc = State.reset.crc := rfl
@[simp] theorem softReset_role (s : State) : (softReset s).role = State.reset.role := rfl
@[simp] theorem softReset_unitId (s : State) : (softReset s).unitId = State.reset.unitId := rfl
@[simp] theorem softReset_rxState (s : State) : (softReset s).rxState = State.reset.rxState := rfl
@[simp] theorem softReset_pending (s : State) : (softReset s).pending = State.reset.pending := rfl
@[simp] theorem softReset_armAwait (s : State) : (softReset s).armAwait = State.reset.armAwait := rfl
@[simp] theorem softReset_rxStatus (s : State) : (softReset s).rxStatus = State.reset.rxStatus := rfl
@[simp] theorem softReset_tEof (s : State) : (softReset s).tEof = State.reset.tEof := rfl
@[simp] theorem softReset_tGap (s : State) : (softReset s).tGap = State.reset.tGap := rfl
@[simp] theorem softReset_tResp (s : State) : (softReset s).tResp = State.reset.tResp := rfl
@[simp] theorem softReset_silence (s : State) : (softReset s).silence = State.reset.silence := rfl
@[simp] theorem softReset_wait (s : State) : (softReset s).wait = State.reset.wait := rfl
@[simp] theorem softReset_acc (s : State) : (softReset s).acc = State.reset.acc := rfl
@[simp] theorem softReset_ovf (s : State) : (softReset s).ovf = State.reset.ovf := rfl
@[simp] theorem softReset_rxf (s : State) : (softReset s).rxf = State.reset.rxf := rfl
@[simp] theorem softReset_rxAddr (s : State) : (softReset s).rxAddr = State.reset.rxAddr := rfl
@[simp] theorem softReset_txf (s : State) : (softReset s).txf = State.reset.txf := rfl
@[simp] theorem softReset_txn (s : State) : (softReset s).txn = s.txn := rfl
@[simp] theorem softReset_mrx (s : State) : (softReset s).mrx = State.reset.mrx := rfl
@[simp] theorem softReset_opb (s : State) : (softReset s).opb = State.reset.opb := rfl
@[simp] theorem softReset_resb (s : State) : (softReset s).resb = State.reset.resb := rfl
@[simp] theorem softReset_evt (s : State) : (softReset s).evt = State.reset.evt := rfl
@[simp] theorem softReset_ie (s : State) : (softReset s).ie = State.reset.ie := rfl
@[simp] theorem softReset_bcast (s : State) : (softReset s).bcast = State.reset.bcast := rfl
@[simp] theorem softReset_inputs (s : State) : (softReset s).inputs = s.inputs := rfl
@[simp] theorem softReset_resp (s : State) : (softReset s).resp = s.resp := rfl
@[simp] theorem softReset_lineTx (s : State) : (softReset s).lineTx = s.lineTx := rfl

/-! The reset state's fields (R51). -/

@[simp] theorem resetWith_crc (p : Params) : (State.resetWith p).crc = 0xFFFF := rfl
@[simp] theorem resetWith_role (p : Params) : (State.resetWith p).role = .unset := rfl
@[simp] theorem resetWith_unitId (p : Params) : (State.resetWith p).unitId = 0 := rfl
@[simp] theorem resetWith_rxState (p : Params) : (State.resetWith p).rxState = .idle := rfl
@[simp] theorem resetWith_pending (p : Params) : (State.resetWith p).pending = false := rfl
@[simp] theorem resetWith_armAwait (p : Params) : (State.resetWith p).armAwait = false := rfl
@[simp] theorem resetWith_rxStatus (p : Params) : (State.resetWith p).rxStatus = .none := rfl
@[simp] theorem resetWith_tEof (p : Params) : (State.resetWith p).tEof = p.eofReset := rfl
@[simp] theorem resetWith_tGap (p : Params) : (State.resetWith p).tGap = p.gapReset := rfl
@[simp] theorem resetWith_tResp (p : Params) : (State.resetWith p).tResp = p.respReset := rfl
@[simp] theorem resetWith_silence (p : Params) : (State.resetWith p).silence = 0 := rfl
@[simp] theorem resetWith_wait (p : Params) : (State.resetWith p).wait = 0 := rfl
@[simp] theorem resetWith_acc (p : Params) : (State.resetWith p).acc = [] := rfl
@[simp] theorem resetWith_ovf (p : Params) : (State.resetWith p).ovf = false := rfl
@[simp] theorem resetWith_rxf (p : Params) : (State.resetWith p).rxf = [] := rfl
@[simp] theorem resetWith_rxAddr (p : Params) : (State.resetWith p).rxAddr = 0 := rfl
@[simp] theorem resetWith_txf (p : Params) : (State.resetWith p).txf = [] := rfl
@[simp] theorem resetWith_txn (p : Params) : (State.resetWith p).txn = p.txnInit := rfl
@[simp] theorem resetWith_mrx (p : Params) : (State.resetWith p).mrx = [] := rfl
@[simp] theorem resetWith_opb (p : Params) : (State.resetWith p).opb = [] := rfl
@[simp] theorem resetWith_resb (p : Params) : (State.resetWith p).resb = [] := rfl
@[simp] theorem resetWith_evt (p : Params) : (State.resetWith p).evt = 0 := rfl
@[simp] theorem resetWith_ie (p : Params) : (State.resetWith p).ie = 0 := rfl
@[simp] theorem resetWith_bcast (p : Params) : (State.resetWith p).bcast = p.bcastAcceptReset := rfl
@[simp] theorem resetWith_inputs (p : Params) : (State.resetWith p).inputs = [] := rfl
@[simp] theorem resetWith_resp (p : Params) : (State.resetWith p).resp = none := rfl
@[simp] theorem resetWith_lineTx (p : Params) : (State.resetWith p).lineTx = [] := rfl

theorem reset_eq : State.reset = State.resetWith Config.params := rfl

/-- A clamped parameter is legal (R7). -/
theorem atLeastOne_ne_zero (w : Word) : Config.atLeastOne w ≠ 0 := by
  unfold Config.atLeastOne
  split
  · decide
  · assumption

/-- This machine's parameters are legal (R7). -/
theorem params_legal : Config.params.Legal := ⟨atLeastOne_ne_zero _, atLeastOne_ne_zero _⟩

/-- The two ways a command ends (R10). -/
theorem done_eq (d : Word) (s : State) : done d s = .next (respond .ok d s) := rfl

theorem raise_eq (st : Status) (s : State) : raise st s = .next (respond st 0 s) := rfl

end Sys2Proof.Machine
end

