-- ==== Sys2Proof/Laws/Frames.lean ====
section
/-! SUPPORT. What the framing functions can do (spec/41_rtu_framer.md R120 to R122; 43_mbap.md R190 to R192): lengths,
failure kinds, and the operand forms. -/

namespace Sys2Proof.Machine

/-- The CRC of a concatenation is the CRC continued (R9, R11). -/
theorem crcFold_append (c : Half) (a b : List Byte) : crcFold c (a ++ b) = crcFold (crcFold c a) b := by
  simp [crcFold]

@[simp] theorem crcFold_nil (c : Half) : crcFold c [] = c := rfl

@[simp] theorem crcFold_cons (c : Half) (b : Byte) (bs : List Byte) : crcFold c (b :: bs) = crcFold (crcStep c b) bs := rfl

@[simp] theorem crcBytes_length (c : Half) : (crcBytes c).length = 2 := rfl

/-- A frame is three bytes longer than its PDU (R121). -/
@[simp] theorem rtuEncode_length (a : Byte) (p : List Byte) : (rtuEncode a p).length = p.length + 3 := by
  simp [rtuEncode]

/-- The two failure kinds of `RtuDecode` (R122). -/
theorem rtuDecode_err {f : List Byte} {e : Status} (h : rtuDecode f = .err e) : e = .invalidData ∨ e = .invalidDataLength := by
  unfold rtuDecode at h
  split at h
  · cases h; exact .inr rfl
  · split at h
    · split at h
      · cases h
      · cases h; exact .inr rfl
    · cases h; exact .inl rfl

/-- A decoded PDU is 3 bytes shorter than its frame, so 1 to 253 bytes (R122). -/
theorem rtuDecode_ok_length {f : List Byte} {a : Byte} {p : List Byte} (h : rtuDecode f = .ok a p) :
    p.length + 3 = f.length ∧ 1 ≤ p.length ∧ p.length ≤ 253 := by
  unfold rtuDecode at h
  split at h
  · cases h
  · rename_i hlen
    split at h
    · split at h
      · rename_i heq
        cases h
        have := congrArg List.length heq
        simp at this
        omega
      · cases h
    · cases h

/-- An MBAP frame is 7 bytes longer than its PDU (R190). -/
@[simp] theorem mbapFormat_length (t : Half) (u : Byte) (p : List Byte) : (mbapFormat t u p).length = p.length + 7 := by
  simp [mbapFormat]

/-- The two failure kinds of `MbapParse` (R192). -/
theorem mbapParse_err {buf : List Byte} {e : Status} (h : mbapParse buf = .err e) :
    e = .invalidData ∨ e = .invalidDataLength := by
  unfold mbapParse at h
  split at h
  · dsimp only at h
    split at h
    · cases h; exact .inl rfl
    · split at h
      · cases h; exact .inr rfl
      · split at h
        · cases h
        · split at h
          · cases h; exact .inr rfl
          · cases h
  · cases h

/-- An incomplete frame is at most 259 bytes (R192, R39). -/
theorem mbapParse_tooShort_length {buf : List Byte} (h : mbapParse buf = .tooShort) : buf.length < 260 := by
  unfold mbapParse at h
  split at h
  · dsimp only at h
    split at h
    · cases h
    · split at h
      · cases h
      · split at h
        · omega
        · split at h <;> cases h
  · rename_i hne
    rcases buf with _ | ⟨a, _ | ⟨b, _ | ⟨c, _ | ⟨d, _ | ⟨e, _ | ⟨f, _ | ⟨g, r⟩⟩⟩⟩⟩⟩⟩
    all_goals first
      | (simp only [List.length_cons, List.length_nil]; omega)
      | exact absurd rfl (hne a b c d e f g r)

/-- A parsed PDU is 7 bytes shorter than its frame, and 1 to 253 bytes (R192). -/
theorem mbapParse_frame_length {buf : List Byte} {t : Half} {u : Byte} {p : List Byte} (h : mbapParse buf = .frame t u p) :
    p.length + 7 = buf.length ∧ 1 ≤ p.length ∧ p.length ≤ 253 := by
  unfold mbapParse at h
  split at h
  · dsimp only at h
    split at h
    · cases h
    · split at h
      · cases h
      · split at h
        · cases h
        · split at h
          · cases h
          · cases h
            simp only [List.length_cons] at *
            exact ⟨trivial, by omega, by omega⟩
  · cases h

theorem legalPdu_iff (p : List Byte) : legalPdu p = true ↔ 1 ≤ p.length ∧ p.length ≤ 253 := by
  simp [legalPdu]

/-- The PDU operand is `OPB` when its length is legal (R123). -/
theorem operandPdu_some {s : State} (h : 1 ≤ s.opb.length ∧ s.opb.length ≤ 253) : operandPdu s = some s.opb := by
  simp [operandPdu, operandBytes, legalPdu, h.1, h.2]

theorem operandPdu_none {s : State} (h : ¬ (1 ≤ s.opb.length ∧ s.opb.length ≤ 253)) : operandPdu s = none := by
  simp only [operandPdu, operandBytes, legalPdu_iff, h]
  rfl

/-- What the PDU operand can be. -/
theorem operandPdu_eq_some {s : State} {p : List Byte} (h : operandPdu s = some p) :
    p = s.opb ∧ 1 ≤ p.length ∧ p.length ≤ 253 := by
  unfold operandPdu operandBytes at h
  split at h
  · rename_i hl
    cases h
    exact ⟨rfl, (legalPdu_iff _).1 hl⟩
  · cases h

end Sys2Proof.Machine
end

