-- ==== Sys2Proof/Laws/Link.lean ====
section
/-! SUPPORT. What the procedures of the link unit can do (spec/42_rtu_link.md R143, R150 to R158, R167), each once. -/

namespace Sys2Proof.Machine

theorem armed_iff (s : State) : armed s = true ↔ s.rxState = .listen ∨ s.rxState = .await := by
  unfold armed
  cases s.rxState <;> simp

theorem linkBusy_false_iff (s : State) : linkBusy s = false ↔ s.rxState = .idle ∧ s.pending = false := by
  simp [linkBusy]

/-- An emission that arms no receiver (R167, R159). -/
theorem emit_unarmed {s : State} (h : s.armAwait = false) :
    emit s = { s with lineTx := s.lineTx ++ [s.txf], silence := 0, pending := false, armAwait := false,
                      evt := s.evt ||| eventMask .txDone } := by
  simp [emit, h, signal]

/-- An emission that arms the receiver (R167). -/
theorem emit_armed {s : State} (h : s.armAwait = true) :
    emit s = { s with lineTx := s.lineTx ++ [s.txf], silence := 0, pending := false, armAwait := false,
                      evt := s.evt ||| eventMask .txDone, rxState := .await, acc := [], ovf := false, wait := 0 } := by
  simp [emit, h, signal]

/-- What the end of a frame can do (R153 to R156): an error ends the receive, a frame for this receiver is delivered, a frame
for another unit is dropped. -/
theorem endOfFrame_cases (s : State) :
    (∃ e, accumulated s = .err e ∧ endOfFrame s = decodeError e { s with acc := [], ovf := false }) ∨
    (∃ a p, accumulated s = .ok a p ∧ (s.rxState = .await ∨ slaveAccepts a s = true) ∧
      endOfFrame s = deliver a p { s with acc := [], ovf := false }) ∨
    (∃ a p, accumulated s = .ok a p ∧ s.rxState ≠ .await ∧ slaveAccepts a s = false ∧
      endOfFrame s = signal .rxDrop { s with acc := [], ovf := false }) := by
  unfold endOfFrame
  cases hacc : accumulated s with
  | err e => exact .inl ⟨e, rfl, rfl⟩
  | ok a p =>
    by_cases hr : s.rxState = .await
    · exact .inr (.inl ⟨a, p, rfl, .inl hr, by simp [hr]⟩)
    · by_cases ha : slaveAccepts a s = true
      · refine .inr (.inl ⟨a, p, rfl, .inr ha, ?_⟩)
        have ha' : slaveAccepts a { s with acc := [], ovf := false } = true := ha
        simp [hr, slaveFilter, ha']
      · have h0 : slaveAccepts a s = false := by simpa using ha
        have ha' : slaveAccepts a { s with acc := [], ovf := false } = false := h0
        refine .inr (.inr ⟨a, p, rfl, hr, h0, ?_⟩)
        simp [hr, slaveFilter, ha']

/-- What the accumulator can decode to (R153). -/
theorem accumulated_cases (s : State) :
    (∃ e, accumulated s = .err e ∧ (e = .invalidData ∨ e = .invalidDataLength)) ∨
    (∃ a p, accumulated s = .ok a p ∧ s.ovf = false ∧ rtuDecode s.acc = .ok a p ∧ 1 ≤ p.length ∧ p.length ≤ 253) := by
  unfold accumulated
  cases ho : s.ovf with
  | true => exact .inl ⟨_, rfl, .inr rfl⟩
  | false =>
    cases hd : rtuDecode s.acc with
    | err e => exact .inl ⟨e, by simp, rtuDecode_err hd⟩
    | ok a p => exact .inr ⟨a, p, by simp, rfl, rfl, (rtuDecode_ok_length hd).2⟩

/-- What a byte from the line can do (R143). -/
theorem lineRx_cases (b : Byte) (s : State) :
    (armed s = false ∧ lineRx b s = { s with silence := 0 }) ∨
    (armed s = true ∧ s.acc.length < 256 ∧ lineRx b s = { s with silence := 0, acc := s.acc ++ [b] }) ∨
    (armed s = true ∧ 256 ≤ s.acc.length ∧ lineRx b s = { s with silence := 0, ovf := true }) := by
  unfold lineRx
  cases ha : armed s with
  | false => exact .inl ⟨rfl, rfl⟩
  | true =>
    by_cases hl : s.acc.length < 256
    · exact .inr (.inl ⟨rfl, hl, by simp [hl]⟩)
    · exact .inr (.inr ⟨rfl, by omega, by simp [hl]⟩)

/-- What the receive part of a tick can do (R150). -/
theorem tickReceive_cases (s : State) :
    (frameEnds s = true ∧ tickReceive s = endOfFrame s) ∨
    (frameEnds s = false ∧ awaitingFirstByte s = true ∧ s.tResp ≤ satInc32 s.wait ∧
      tickReceive s = noResponseTimeout { s with wait := satInc32 s.wait }) ∨
    (frameEnds s = false ∧ awaitingFirstByte s = true ∧ ¬ s.tResp ≤ satInc32 s.wait ∧
      tickReceive s = { s with wait := satInc32 s.wait }) ∨
    (frameEnds s = false ∧ awaitingFirstByte s = false ∧ tickReceive s = s) := by
  unfold tickReceive
  cases hf : frameEnds s with
  | true => exact .inl ⟨rfl, rfl⟩
  | false =>
    cases hw : awaitingFirstByte s with
    | false => exact .inr (.inr (.inr ⟨rfl, rfl, by simp⟩))
    | true =>
      by_cases hr : s.tResp ≤ satInc32 s.wait
      · exact .inr (.inl ⟨rfl, rfl, hr, by simp [responseWait, hr]⟩)
      · exact .inr (.inr (.inl ⟨rfl, rfl, hr, by simp [responseWait, hr]⟩))

/-- What the transmit part of a tick can do (R150, R158). -/
theorem tickTransmit_cases (s : State) :
    (s.pending = true ∧ s.tGap ≤ s.silence ∧ tickTransmit s = emit s) ∨
    (¬ (s.pending = true ∧ s.tGap ≤ s.silence) ∧ tickTransmit s = s) := by
  unfold tickTransmit
  by_cases h : s.pending = true ∧ s.tGap ≤ s.silence
  · exact .inl ⟨h.1, h.2, by simp [h.1, h.2]⟩
  · refine .inr ⟨h, ?_⟩
    have : (s.pending && decide (s.tGap ≤ s.silence)) = false := by
      rw [Bool.and_eq_false_iff]
      by_cases hp : s.pending = true
      · exact .inr (by simpa using fun hg => h ⟨hp, hg⟩)
      · exact .inl (by simpa using hp)
    simp [this]

/-- `sat_inc_32` adds 1 below the maximum and stays there (R9). -/
theorem satInc32_toNat (v : Word) : (satInc32 v).toNat = min (v.toNat + 1) (2 ^ 32 - 1) := by
  unfold satInc32
  have hv := v.isLt
  split
  · rename_i h
    have h' : v.toNat < 2 ^ 32 - 1 := by simpa [BitVec.lt_def] using h
    rw [BitVec.toNat_add]
    simp
    omega
  · rename_i h
    have h' : ¬ v.toNat < 2 ^ 32 - 1 := by simpa [BitVec.lt_def] using h
    omega

end Sys2Proof.Machine
end

