-- ==== Sys2Proof/Laws/Memory.lean ====
section
/-! SUPPORT. The buffers: every operation on them keeps their form (spec/00_scope.md R8), and what a read of one byte finds
(spec/20_memory.md R67). -/

namespace Sys2Proof.Machine

theorem memory_wf_iff (s : State) :
    Memory.wf s = true ↔
      s.opb.length ≤ 260 ∧ s.resb.length ≤ 260 ∧ s.acc.length ≤ 256 ∧ s.rxf.length ≤ 253 ∧ s.txf.length ≤ 256 ∧
        s.mrx.length ≤ 260 := by
  simp [Memory.wf, and_assoc]

/-- No buffer exceeds its capacity. -/
theorem memory_wf_capacity {s : State} (h : Memory.wf s = true) (b : Buffer) :
    (bufferBytes b s).length ≤ bufferCapacity b := by
  obtain ⟨h1, h2, h3, h4, h5, h6⟩ := (memory_wf_iff s).1 h
  cases b <;> assumption

/-- The form depends on the six buffers only. -/
theorem memory_wf_congr {s t : State} (h1 : t.opb = s.opb) (h2 : t.resb = s.resb) (h3 : t.acc = s.acc) (h4 : t.rxf = s.rxf)
    (h5 : t.txf = s.txf) (h6 : t.mrx = s.mrx) : Memory.wf t = Memory.wf s := by
  simp only [Memory.wf, h1, h2, h3, h4, h5, h6]

theorem memory_wf_resetWith (p : Params) : Memory.wf (State.resetWith p) = true := rfl

theorem memory_wf_softReset (s : State) : Memory.wf (softReset s) = true := rfl

@[simp] theorem memory_wf_respond (st : Status) (d : Word) (s : State) : Memory.wf (respond st d s) = Memory.wf s := rfl

@[simp] theorem memory_wf_signal (e : Event) (s : State) : Memory.wf (signal e s) = Memory.wf s := rfl

theorem memory_wf_setResult {bytes : List Byte} {s : State} (h : Memory.wf s = true) (hb : bytes.length ≤ 260) :
    Memory.wf (setResult bytes s) = true := by
  rw [memory_wf_iff] at *
  simpa using ⟨h.1, hb, h.2.2⟩

/-- `OPB_PUSH` into a buffer that is not full (R223). -/
theorem memory_wf_opbPush {b : Byte} {s : State} (h : Memory.wf s = true) (hb : s.opb.length < 260) :
    Memory.wf { s with opb := s.opb ++ [b] } = true := by
  rw [memory_wf_iff] at *
  simpa using ⟨by omega, h.2⟩

theorem memory_wf_opbClear {s : State} (h : Memory.wf s = true) : Memory.wf { s with opb := [] } = true := by
  rw [memory_wf_iff] at *
  simpa using h.2

/-- `MBAP_PUSH` into a buffer that is not full (R196). -/
theorem memory_wf_mrxPush {b : Byte} {s : State} (h : Memory.wf s = true) (hb : s.mrx.length < 260) :
    Memory.wf { s with mrx := s.mrx ++ [b] } = true := by
  rw [memory_wf_iff] at *
  simpa using ⟨h.1, h.2.1, h.2.2.1, h.2.2.2.1, h.2.2.2.2.1, by omega⟩

theorem memory_wf_mrxClear {s : State} (h : Memory.wf s = true) : Memory.wf { s with mrx := [] } = true := by
  rw [memory_wf_iff] at *
  simpa using ⟨h.1, h.2.1, h.2.2.1, h.2.2.2.1, h.2.2.2.2.1⟩

/-- The byte event appends to the accumulator only below its capacity (R143). -/
theorem memory_wf_lineRx {b : Byte} {s : State} (h : Memory.wf s = true) : Memory.wf (lineRx b s) = true := by
  unfold lineRx
  split
  · split
    · rename_i hlt
      rw [memory_wf_iff] at *
      simpa using ⟨h.1, h.2.1, by omega, h.2.2.2⟩
    · exact h
  · exact h

/-- Emptying the accumulator (R144, R153, R167). -/
theorem memory_wf_accClear {s : State} (h : Memory.wf s = true) : Memory.wf { s with acc := [], ovf := false } = true := by
  rw [memory_wf_iff] at *
  simpa using ⟨h.1, h.2.1, h.2.2.2⟩

/-- A frame of a legal PDU fits `TXF` (R145). -/
theorem memory_wf_txf {a : Byte} {pdu : List Byte} {s : State} (h : Memory.wf s = true) (hp : pdu.length ≤ 253) :
    Memory.wf { s with txf := rtuEncode a pdu } = true := by
  rw [memory_wf_iff] at *
  simpa using ⟨h.1, h.2.1, h.2.2.1, h.2.2.2.1, by omega, h.2.2.2.2.2⟩

/-- A decoded PDU fits `RXF` (R154). -/
theorem memory_wf_deliver {a : Byte} {pdu : List Byte} {s : State} (h : Memory.wf s = true) (hp : pdu.length ≤ 253) :
    Memory.wf (deliver a pdu s) = true := by
  rw [memory_wf_iff] at *
  exact ⟨h.1, h.2.1, h.2.2.1, hp, h.2.2.2.2⟩

theorem memory_wf_emit {s : State} (h : Memory.wf s = true) : Memory.wf (emit s) = true := by
  cases ha : s.armAwait with
  | false => rw [emit_unarmed ha]; exact h
  | true => rw [emit_armed ha]; exact memory_wf_accClear (s := s) h

theorem memory_wf_endOfFrame {s : State} (h : Memory.wf s = true) : Memory.wf (endOfFrame s) = true := by
  have hc := memory_wf_accClear h
  rcases endOfFrame_cases s with ⟨e, -, he⟩ | ⟨a, p, hacc, -, he⟩ | ⟨a, p, -, -, -, he⟩ <;> rw [he]
  · exact hc
  · obtain ⟨e, h1, -⟩ | ⟨a', p', h1, -, -, -, hl⟩ := accumulated_cases s <;> rw [hacc] at h1 <;> cases h1
    exact memory_wf_deliver hc hl
  · exact hc

/-- A tick keeps the buffers' form (R150). -/
theorem memory_wf_tick {s : State} (h : Memory.wf s = true) : Memory.wf (tick s) = true := by
  have hr : Memory.wf (tickReceive { s with silence := satInc32 s.silence }) = true := by
    rcases tickReceive_cases { s with silence := satInc32 s.silence } with
      ⟨-, e⟩ | ⟨-, -, -, e⟩ | ⟨-, -, -, e⟩ | ⟨-, -, e⟩ <;> rw [e]
    · exact memory_wf_endOfFrame h
    · exact h
    · exact h
    · exact h
  unfold tick
  rcases tickTransmit_cases (tickReceive { s with silence := satInc32 s.silence }) with ⟨-, -, e⟩ | ⟨-, e⟩ <;> rw [e]
  · exact memory_wf_emit hr
  · exact hr

/-- A read below the length finds the byte; at or beyond it finds none (R67). -/
theorem readByte_lt {b : Buffer} {i : Nat} {s : State} (h : i < (bufferBytes b s).length) :
    readByte b i s = some ((bufferBytes b s)[i]) := by
  simp [readByte, h]

theorem readByte_ge {b : Buffer} {i : Nat} {s : State} (h : (bufferBytes b s).length ≤ i) : readByte b i s = none := by
  simp [readByte, h]

end Sys2Proof.Machine
end

