-- ==== Sys2Proof/Laws/PerInstr.lean ====
section
/-! SUPPORT. The laws of each command as syntax, one lemma per constructor. -/

namespace Sys2Proof.Laws.EncodeSelects

/-- The encoding of a command selects the row of the opcode table that bears its mnemonic (spec/30_encoding.md R83, R85). -/
def Statement (i : Instr) : Prop := ∃ r ∈ opcodeTable, r.mnemonic = i.mnemonic ∧ r.selects (encode i) = true

theorem nop : Statement .nop :=
  ⟨⟨"NOP", 0x0000000000000000, 0xFFFFFFFFFFFFFFFF⟩, by decide, rfl, selects_none 0x00⟩

theorem softReset : Statement .softReset :=
  ⟨⟨"SOFT_RESET", 0x0100000000000000, 0xFFFFFFFFFFFFFFFF⟩, by decide, rfl, selects_none 0x01⟩

theorem opbClear : Statement .opbClear :=
  ⟨⟨"OPB_CLEAR", 0x0200000000000000, 0xFFFFFFFFFFFFFFFF⟩, by decide, rfl, selects_none 0x02⟩

theorem opbPush (x : Byte) : Statement (.opbPush x) :=
  ⟨⟨"OPB_PUSH", 0x0300000000000000, 0xFF00FFFFFFFFFFFF⟩, by decide, rfl, selects_a 0x03 x⟩

theorem resRead (x : Word) : Statement (.resRead x) :=
  ⟨⟨"RES_READ", 0x0400000000000000, 0xFFFFFFFF00000000⟩, by decide, rfl, selects_b 0x04 x⟩

theorem csrRead (x : Byte) : Statement (.csrRead x) :=
  ⟨⟨"CSR_READ", 0x0500000000000000, 0xFF00FFFFFFFFFFFF⟩, by decide, rfl, selects_a 0x05 x⟩

theorem csrWrite (x : Byte) (y : Word) : Statement (.csrWrite x y) :=
  ⟨⟨"CSR_WRITE", 0x0600000000000000, 0xFF00FFFF00000000⟩, by decide, rfl, selects_ab 0x06 x y⟩

theorem crcInit : Statement .crcInit :=
  ⟨⟨"CRC_INIT", 0x1000000000000000, 0xFFFFFFFFFFFFFFFF⟩, by decide, rfl, selects_none 0x10⟩

theorem crcByte (x : Byte) : Statement (.crcByte x) :=
  ⟨⟨"CRC_BYTE", 0x1100000000000000, 0xFF00FFFFFFFFFFFF⟩, by decide, rfl, selects_a 0x11 x⟩

theorem crcBuf : Statement .crcBuf :=
  ⟨⟨"CRC_BUF", 0x1200000000000000, 0xFFFFFFFFFFFFFFFF⟩, by decide, rfl, selects_none 0x12⟩

theorem crcRead : Statement .crcRead :=
  ⟨⟨"CRC_READ", 0x1300000000000000, 0xFFFFFFFFFFFFFFFF⟩, by decide, rfl, selects_none 0x13⟩

theorem rtuEncode (x : Byte) : Statement (.rtuEncode x) :=
  ⟨⟨"RTU_ENCODE", 0x2000000000000000, 0xFF00FFFFFFFFFFFF⟩, by decide, rfl, selects_a 0x20 x⟩

theorem rtuDecode : Statement .rtuDecode :=
  ⟨⟨"RTU_DECODE", 0x2100000000000000, 0xFFFFFFFFFFFFFFFF⟩, by decide, rfl, selects_none 0x21⟩

theorem startMaster : Statement .startMaster :=
  ⟨⟨"START_MASTER", 0x3000000000000000, 0xFFFFFFFFFFFFFFFF⟩, by decide, rfl, selects_none 0x30⟩

theorem startSlave (x : Byte) : Statement (.startSlave x) :=
  ⟨⟨"START_SLAVE", 0x3100000000000000, 0xFF00FFFFFFFFFFFF⟩, by decide, rfl, selects_a 0x31 x⟩

theorem rtuListen : Statement .rtuListen :=
  ⟨⟨"RTU_LISTEN", 0x3200000000000000, 0xFFFFFFFFFFFFFFFF⟩, by decide, rfl, selects_none 0x32⟩

theorem rtuSend (x : Byte) : Statement (.rtuSend x) :=
  ⟨⟨"RTU_SEND", 0x3300000000000000, 0xFF00FFFFFFFFFFFF⟩, by decide, rfl, selects_a 0x33 x⟩

theorem rxfRead (x : Word) : Statement (.rxfRead x) :=
  ⟨⟨"RXF_READ", 0x3400000000000000, 0xFFFFFFFF00000000⟩, by decide, rfl, selects_b 0x34 x⟩

theorem mbapFormat (x : Byte) (y : Half) : Statement (.mbapFormat x y) :=
  ⟨⟨"MBAP_FORMAT", 0x4000000000000000, 0xFF00FFFFFFFF0000⟩, by decide, rfl, selects_aTxn 0x40 x y⟩

theorem mbapEncode (x : Byte) : Statement (.mbapEncode x) :=
  ⟨⟨"MBAP_ENCODE", 0x4100000000000000, 0xFF00FFFFFFFFFFFF⟩, by decide, rfl, selects_a 0x41 x⟩

theorem mbapParse : Statement .mbapParse :=
  ⟨⟨"MBAP_PARSE", 0x4200000000000000, 0xFFFFFFFFFFFFFFFF⟩, by decide, rfl, selects_none 0x42⟩

theorem mbapPush (x : Byte) : Statement (.mbapPush x) :=
  ⟨⟨"MBAP_PUSH", 0x4300000000000000, 0xFF00FFFFFFFFFFFF⟩, by decide, rfl, selects_a 0x43 x⟩

theorem mbapStreamClear : Statement .mbapStreamClear :=
  ⟨⟨"MBAP_STREAM_CLEAR", 0x4400000000000000, 0xFFFFFFFFFFFFFFFF⟩, by decide, rfl, selects_none 0x44⟩

end Sys2Proof.Laws.EncodeSelects
end

