-- ==== Sys2Proof/Laws/Time.lean ====
section
/-! SUPPORT. What a tick does where no frame ends, no wait runs and no gap completes, and what runs of ticks do to the
silence counter (spec/42_rtu_link.md R150, R151, R158). -/

namespace Sys2Proof.Machine

/-- The last of `n + 1` ticks comes after the other `n`. -/
theorem ticks_succ (n : Nat) (s : State) : ticks (n + 1) s = tick (ticks n s) := by
  induction n generalizing s with
  | zero => rfl
  | succ n ih => rw [ticks, ih]; rfl

/-- Only these fields change in the receive part of a tick (R150). -/
theorem tickReceive_frame (s : State) :
    UnchangedExcept [.wait, .acc, .ovf, .rxState, .rxStatus, .rxf, .rxAddr, .evt] s (tickReceive s) := by
  have h : tickReceive s = endOfFrame s ∨ UnchangedExcept [.wait, .rxState, .rxStatus, .evt] s (tickReceive s) := by
    rcases tickReceive_cases s with ⟨-, e⟩ | ⟨-, -, -, e⟩ | ⟨-, -, -, e⟩ | ⟨-, -, e⟩ <;> rw [e]
    · exact .inl rfl
    all_goals
      refine .inr fun g hg => ?_
      cases g <;> first | rfl | exact absurd hg (by decide)
  rcases h with e | h
  · rw [e]
    rcases endOfFrame_cases s with ⟨_, _, e⟩ | ⟨_, _, _, _, e⟩ | ⟨_, _, _, _, _, e⟩ <;> rw [e] <;> intro g hg <;>
      cases g <;> first | rfl | exact absurd hg (by decide)
  · exact fun g hg => h g fun hm => hg (by revert hm; cases g <;> decide)

/-- With no transmit pending a tick is its receive part. -/
theorem tick_unpending {s : State} (hp : s.pending = false) :
    tick s = tickReceive { s with silence := satInc32 s.silence } := by
  unfold tick
  rcases tickTransmit_cases (tickReceive { s with silence := satInc32 s.silence }) with ⟨h, -, -⟩ | ⟨-, e⟩
  · rw [tickReceive_frame _ .pending (by decide)] at h
    exact absurd (h.symm.trans hp) (by decide)
  · exact e

/-- With the receiver idle a tick is its transmit part. -/
theorem tick_idle {s : State} (hi : s.rxState = .idle) :
    tick s = tickTransmit { s with silence := satInc32 s.silence } := by
  have hr : tickReceive { s with silence := satInc32 s.silence } = { s with silence := satInc32 s.silence } := by
    simp [tickReceive, frameEnds, armed, awaitingFirstByte, hi]
  rw [tick, hr]

/-- A tick at which an unfinished frame does not end only counts the silence (R150). -/
theorem tick_receiving {s : State} (hp : s.pending = false) (ha : s.acc ≠ []) (he : satInc32 s.silence < s.tEof) :
    tick s = { s with silence := satInc32 s.silence } := by
  have hf : ¬ s.tEof ≤ satInc32 s.silence := BitVec.not_le.2 he
  rw [tick_unpending hp]
  simp [tickReceive, frameEnds, awaitingFirstByte, ha, hf]

/-- With no transmit pending, ticks count the silence up to its maximum, put nothing on the line and leave the gap (R151). -/
theorem ticks_unpending {s : State} (hp : s.pending = false) (k : Nat) :
    (ticks k s).silence.toNat = min (s.silence.toNat + k) (2 ^ 32 - 1) ∧ (ticks k s).pending = false ∧
      (ticks k s).lineTx = s.lineTx ∧ (ticks k s).tGap = s.tGap := by
  induction k with
  | zero =>
    have := s.silence.isLt
    exact ⟨by simp only [ticks]; omega, hp, rfl, rfl⟩
  | succ k ih =>
    obtain ⟨hs, hp', hl, hg⟩ := ih
    have hu := tickReceive_frame { ticks k s with silence := satInc32 (ticks k s).silence }
    rw [ticks_succ, tick_unpending hp']
    refine ⟨?_, (hu .pending (by decide)).trans hp', (hu .lineTx (by decide)).trans hl, (hu .tGap (by decide)).trans hg⟩
    rw [hu .silence (by decide)]
    show (satInc32 (ticks k s).silence).toNat = _
    rw [satInc32_toNat, hs]
    omega

/-- Ticks short of `T_EOF` only count the silence of an unfinished frame (R150, R152). -/
theorem ticks_receiving {s : State} (hp : s.pending = false) (ha : s.acc ≠ []) (k : Nat)
    (hk : s.silence.toNat + k < s.tEof.toNat) :
    ticks k s = { s with silence := BitVec.ofNat 32 (s.silence.toNat + k) } := by
  induction k with
  | zero => simp [ticks]
  | succ k ih =>
    have ht := s.tEof.isLt
    have hinc : satInc32 (BitVec.ofNat 32 (s.silence.toNat + k)) = BitVec.ofNat 32 (s.silence.toNat + (k + 1)) := by
      apply BitVec.eq_of_toNat_eq
      rw [satInc32_toNat]
      simp
      omega
    rw [ticks_succ, ih (by omega), tick_receiving (s := { s with silence := BitVec.ofNat 32 (s.silence.toNat + k) }) hp ha]
    · simp only [hinc]
    · show satInc32 (BitVec.ofNat 32 (s.silence.toNat + k)) < s.tEof
      rw [hinc, BitVec.lt_def]
      simp
      omega

/-- Ticks short of `T_GAP` only count the silence before a pending transmit (R150, R158). -/
theorem ticks_pending {s : State} (hi : s.rxState = .idle) (k : Nat) (hk : s.silence.toNat + k < s.tGap.toNat) :
    ticks k s = { s with silence := BitVec.ofNat 32 (s.silence.toNat + k) } := by
  induction k with
  | zero => simp [ticks]
  | succ k ih =>
    have ht := s.tGap.isLt
    have hinc : satInc32 (BitVec.ofNat 32 (s.silence.toNat + k)) = BitVec.ofNat 32 (s.silence.toNat + (k + 1)) := by
      apply BitVec.eq_of_toNat_eq
      rw [satInc32_toNat]
      simp
      omega
    rw [ticks_succ, ih (by omega), tick_idle (s := { s with silence := BitVec.ofNat 32 (s.silence.toNat + k) }) hi]
    simp only [hinc]
    rcases tickTransmit_cases { s with silence := BitVec.ofNat 32 (s.silence.toNat + (k + 1)) } with ⟨-, h, -⟩ | ⟨-, e⟩
    · have h' : s.tGap.toNat ≤ (BitVec.ofNat 32 (s.silence.toNat + (k + 1))).toNat := h
      simp at h'
      omega
    · exact e

/-- The tick at which the silence reaches `T_EOF` empties the accumulator (R152, R153). -/
theorem tick_ends_frame {s : State} (hp : s.pending = false) (hr : armed s = true) (ha : s.acc ≠ [])
    (he : s.tEof ≤ satInc32 s.silence) : tick s = endOfFrame { s with silence := satInc32 s.silence } := by
  have hr' : armed { s with silence := satInc32 s.silence } = true := hr
  rw [tick_unpending hp]
  simp [tickReceive, frameEnds, hr', ha, he]

/-- The tick at which the silence reaches `T_GAP` emits the pending frame (R158, R167). -/
theorem tick_emits {s : State} (hi : s.rxState = .idle) (hp : s.pending = true) (hg : s.tGap ≤ satInc32 s.silence) :
    tick s = emit { s with silence := satInc32 s.silence } := by
  rw [tick_idle hi]
  simp [tickTransmit, hp, hg]

@[simp] theorem emit_lineTx (s : State) : (emit s).lineTx = s.lineTx ++ [s.txf] := by
  cases h : s.armAwait
  · rw [emit_unarmed h]
  · rw [emit_armed h]

@[simp] theorem endOfFrame_acc (s : State) : (endOfFrame s).acc = [] := by
  rcases endOfFrame_cases s with ⟨_, _, e⟩ | ⟨_, _, _, _, e⟩ | ⟨_, _, _, _, _, e⟩ <;> rw [e] <;> rfl

@[simp] theorem lineRx_silence (b : Byte) (s : State) : (lineRx b s).silence = 0 := by
  rcases lineRx_cases b s with ⟨-, e⟩ | ⟨-, -, e⟩ | ⟨-, -, e⟩ <;> rw [e]

/-- A byte from the line changes only the silence and the accumulator (R143). -/
theorem lineRx_frame (b : Byte) (s : State) : UnchangedExcept [.silence, .acc, .ovf] s (lineRx b s) := by
  rcases lineRx_cases b s with ⟨-, e⟩ | ⟨-, -, e⟩ | ⟨-, -, e⟩ <;> rw [e] <;> intro f hf <;>
    cases f <;> first | rfl | exact absurd hf (by decide)

/-- After a byte an armed receiver has a non-empty accumulator (R143). -/
theorem lineRx_acc_ne_nil {s : State} (b : Byte) (h : armed s = true) : (lineRx b s).acc ≠ [] := by
  rcases lineRx_cases b s with ⟨h', -⟩ | ⟨-, -, e⟩ | ⟨-, hl, e⟩
  · exact absurd (h.symm.trans h') (by decide)
  · rw [e]; simp
  · rw [e]; intro hn
    have : s.acc = [] := hn
    simp [this] at hl

end Sys2Proof.Machine
end

