-- ==== Sys2Proof/Machine/Assembler.lean ====
section
/-! DEFINITION. The assembler syntax and the trace notation (spec/30_encoding.md R93) and the pseudo-commands as text (R94):
from a program text to the inputs it stands for. What R93 leaves open about blanks, letters and leading zeros is log 15. -/

namespace Sys2Proof.Machine

/-- A piece of program text. -/
abbrev Text := List Char

def isBlank (c : Char) : Bool := c == ' ' || c == '\t' || c == '\r'

/-- Text without blanks at either end. -/
def trimBlanks (t : Text) : Text := ((t.dropWhile isBlank).reverse.dropWhile isBlank).reverse

/-- The pieces of a text between separators; one empty piece for an empty text. -/
def splitAtChar (isSep : Char → Bool) : Text → List Text
  | [] => [[]]
  | c :: rest =>
    if isSep c then [] :: splitAtChar isSep rest
    else
      match splitAtChar isSep rest with
      | [] => [[c]]
      | first :: others => (c :: first) :: others

/-- The value of a digit, in decimal or hexadecimal. -/
def digitValue (c : Char) : Option Nat :=
  if '0'.toNat ≤ c.toNat ∧ c.toNat ≤ '9'.toNat then some (c.toNat - '0'.toNat)
  else if 'a'.toNat ≤ c.toNat ∧ c.toNat ≤ 'f'.toNat then some (c.toNat - 'a'.toNat + 10)
  else if 'A'.toNat ≤ c.toNat ∧ c.toNat ≤ 'F'.toNat then some (c.toNat - 'A'.toNat + 10)
  else none

/-- The number that digits stand for, after `acc`; none if a character is no digit of the base. -/
def digitsFrom (base : Nat) (acc : Nat) : Text → Option Nat
  | [] => some acc
  | c :: rest =>
    match digitValue c with
    | none => none
    | some d => if d < base then digitsFrom base (acc * base + d) rest else none

/-- At least one digit. -/
def digits (base : Nat) (t : Text) : Option Nat := if t.isEmpty then none else digitsFrom base 0 t

/-- A number in C notation, `0x` hex or decimal (R93). DESIGN CHOICE (log 15): digits that start with 0 and have no `0x` are
read as decimal, `010` as 10, where C's own notation reads octal and R93 names only the two bases. -/
def number : Text → Option Nat
  | '0' :: 'x' :: t => digits 16 t
  | '0' :: 'X' :: t => digits 16 t
  | t => digits 10 t

/-- A number that fits a field of `n` bits. -/
def fieldOperand (n : Nat) (t : Text) : Option (BitVec n) :=
  match number t with
  | none => none
  | some v => if v < 2 ^ n then some (BitVec.ofNat n v) else none

/-- The CSR names (10_state.md R23). -/
def csrNames : List (String × Csr) :=
  [ ("CRC", .crc), ("MODE", .mode), ("UNIT_ID", .unitId), ("RX_STATE", .rxState), ("TX_STATE", .txState)
  , ("RX_STATUS", .rxStatus), ("T_EOF", .tEof), ("T_GAP", .tGap), ("T_RESP", .tResp), ("SILENCE", .silence)
  , ("WAIT", .wait), ("ACC_LEN", .accLen), ("RXF_LEN", .rxfLen), ("RX_ADDR", .rxAddr), ("TXN", .txn)
  , ("MRX_LEN", .mrxLen), ("OPB_LEN", .opbLen), ("RESB_LEN", .resbLen), ("TXF_LEN", .txfLen), ("EVT", .evt)
  , ("IE", .ie), ("CFG", .cfg) ]

/-- A CSR number, written as a number or by its name (R93). -/
def csrOperand (t : Text) : Option Byte :=
  match csrNames.find? fun p => p.1.toList == t with
  | some p => some (csrNumber p.2)
  | none => fieldOperand 8 t

/-- What the operands of a line make of its mnemonic: the commands it stands for. -/
abbrev LineForm := List Text → Option (List Instr)

/-- A command with no operand. -/
def formNone (i : Instr) : LineForm
  | [] => some [i]
  | _ => none

/-- A command with one operand of `n` bits. -/
def formOne (n : Nat) (i : BitVec n → Instr) : LineForm
  | [t] => (fieldOperand n t).map fun v => [i v]
  | _ => none

/-- A pseudo-command, expanded if it is well formed (R94). -/
def formPseudo (p : Pseudo) : Option (List Instr) := if p.wellFormed then some p.expand else none

/-- A pseudo-command with one 32-bit operand (R94). -/
def formPseudoWord (p : Word → Pseudo) : LineForm
  | [t] => (fieldOperand 32 t).bind fun v => formPseudo (p v)
  | _ => none

/-- A pseudo-command with a count (R94). -/
def formPseudoCount (p : Nat → Pseudo) : LineForm
  | [t] => (number t).bind fun n => formPseudo (p n)
  | _ => none

/-- `CSR_READ n` (R93). -/
def formCsrRead : LineForm
  | [t] => (csrOperand t).map fun n => [.csrRead n]
  | _ => none

/-- `CSR_WRITE n, v` (R93). -/
def formCsrWrite : LineForm
  | [t, u] => (csrOperand t).bind fun n => (fieldOperand 32 u).map fun v => [.csrWrite n v]
  | _ => none

/-- `MBAP_FORMAT u, t` (R93). -/
def formMbapFormat : LineForm
  | [t, u] => (fieldOperand 8 t).bind fun unit => (fieldOperand 16 u).map fun txn => [.mbapFormat unit txn]
  | _ => none

/-- `LOADOPB b0, ..., bk-1` (R94). -/
def formLoadOpb (ts : List Text) : Option (List Instr) :=
  (ts.mapM (fieldOperand 8)).bind fun bs => formPseudo (.loadOpb bs)

/-- The mnemonics of R83. -/
def commandForms : List (String × LineForm) :=
  [ ("NOP", formNone .nop), ("SOFT_RESET", formNone .softReset), ("OPB_CLEAR", formNone .opbClear)
  , ("OPB_PUSH", formOne 8 .opbPush), ("RES_READ", formOne 32 .resRead), ("CSR_READ", formCsrRead)
  , ("CSR_WRITE", formCsrWrite), ("CRC_INIT", formNone .crcInit), ("CRC_BYTE", formOne 8 .crcByte)
  , ("CRC_BUF", formNone .crcBuf), ("CRC_READ", formNone .crcRead), ("RTU_ENCODE", formOne 8 .rtuEncode)
  , ("RTU_DECODE", formNone .rtuDecode), ("START_MASTER", formNone .startMaster), ("START_SLAVE", formOne 8 .startSlave)
  , ("RTU_LISTEN", formNone .rtuListen), ("RTU_SEND", formOne 8 .rtuSend), ("RXF_READ", formOne 32 .rxfRead)
  , ("MBAP_FORMAT", formMbapFormat), ("MBAP_ENCODE", formOne 8 .mbapEncode), ("MBAP_PARSE", formNone .mbapParse)
  , ("MBAP_PUSH", formOne 8 .mbapPush), ("MBAP_STREAM_CLEAR", formNone .mbapStreamClear) ]

/-- The mnemonics of R94. -/
def pseudoForms : List (String × LineForm) :=
  [ ("LOADOPB", formLoadOpb), ("CLR_EVT", formPseudoWord .clrEvt), ("SET_TXN", formPseudoWord .setTxn)
  , ("SET_IE", formPseudoWord .setIe), ("READRES", formPseudoCount .readRes), ("READRXF", formPseudoCount .readRxf) ]

/-- One command or pseudo-command: the mnemonic, then its operands separated by commas (R93). -/
def assembleCommand (line : Text) : Option (List Instr) :=
  let mnemonic := line.takeWhile fun c => !isBlank c
  let rest := trimBlanks (line.dropWhile fun c => !isBlank c)
  let operands := if rest.isEmpty then [] else (splitAtChar (· == ',') rest).map trimBlanks
  match (commandForms ++ pseudoForms).find? fun p => p.1.toList == mnemonic with
  | none => none
  | some p => p.2 operands

/-- Line events of a program trace: `@rx 0x12`, `@tick`, `@tick*n` (R93). -/
def traceEvents : List Text → Option (List Input)
  | [] => some []
  | ['@', 'r', 'x'] :: t :: rest =>
    (fieldOperand 8 t).bind fun b => (traceEvents rest).map fun es => .lineRx b :: es
  | ['@', 't', 'i', 'c', 'k'] :: rest => (traceEvents rest).map fun es => .tick :: es
  | ('@' :: 't' :: 'i' :: 'c' :: 'k' :: '*' :: n) :: rest =>
    (number n).bind fun k => (traceEvents rest).map fun es => List.replicate k .tick ++ es
  | _ => none

/-- The inputs one line stands for (R93): nothing for a line that is blank or only a comment, which starts with `;`. -/
def assembleLine (line : Text) : Option (List Input) :=
  match trimBlanks (line.takeWhile fun c => c != ';') with
  | [] => some []
  | '@' :: t => traceEvents (((splitAtChar isBlank ('@' :: t))).filter fun w => !w.isEmpty)
  | t => (assembleCommand t).map fun is => is.map fun i => .command (encode i)

/-- The inputs a program text stands for, line by line; none if a line is neither command nor trace events. -/
def assemble (program : String) : Option (List Input) :=
  ((splitAtChar (· == '\n') program.toList).mapM assembleLine).map List.flatten

end Sys2Proof.Machine
end

