-- ==== Sys2Proof/Tests/Slice0.lean ====
section
/-! SUPPORT. Tests of the model. The expected results are the vectors of spec/95_test_vectors.md (named V, L, P and by section
number), or the words of spec/30_encoding.md R81 and R83 written out. The last part shows, for each obligation that has
hypotheses, states and operands that meet them. -/

namespace Sys2Proof.Tests

open Sys2Proof Sys2Proof.Machine

/-! States and runs -/

/-- The parameters of the conventions of 95_test_vectors.md. -/
def conventions : Params := ⟨3, 5, 20, 0, false⟩

/-- Power-on reset with those parameters. -/
def base : State := State.resetWith conventions

/-- `base` with an operand loaded. -/
def loaded (bytes : List Byte) : State := { base with opb := bytes }

/-- An idle master after five ticks, with the PDU `07` loaded. -/
def master : State := { loaded [0x07] with role := .master, silence := 5 }

/-- The frame of V1. -/
def frameV1 : List Byte := [0x02, 0x07, 0x41, 0x12]

/-- "Master awaiting" of section 2.3. -/
def awaiting : State :=
  { master with silence := 0, txf := frameV1, rxState := .await, evt := 0x08, lineTx := [frameV1] }

/-- The state of L-14: a transmit pending. -/
def pendingSend : State := { master with silence := 0, txf := frameV1, pending := true, armAwait := true }

/-- An idle slave with unit id 0x11. -/
def slave : State := { loaded [0x07] with role := .slave, unitId := 0x11 }

/-- The same slave, listening. -/
def listening : State := { slave with rxState := .listen }

/-- One step on a command word: the state after it (the state before it if the step does not answer next). -/
def after (w : Nat) (s : State) : State :=
  match step (s.withFetchWord 64 w) with
  | .next t => t
  | .fault _ => s
  | .refused _ => s

/-- The status code and the result data of one step on a command word. -/
def returned (w : Nat) (s : State) : Option (Nat × Nat) :=
  (after w s).resp.map fun r => ((statusCode r.status).toNat, r.rdata.toNat)

/-! Well-formedness: each check refuses an ill-formed term -/

/-- An opcode that is no row's (R84). -/
theorem test_illegal_opcode_is_ill_formed :
    legalOpcode 0x07 = false ∧ wellFormedWord 0x0700000000000000 = false ∧
    decode 0x0700000000000000 = .error (.illegalOpcode 0x07) := by decide

/-- A 1 in `Z`, in an unused `A`, in an unused `B`, and in `B[31:16]` of `MBAP_FORMAT` (R85, section 2.5). -/
theorem test_reserved_bits_are_ill_formed :
    wellFormedWord 0x0607000100000000 = false ∧ wellFormedWord 0x0001000000000000 = false ∧
    wellFormedWord 0x0000000000000001 = false ∧ wellFormedWord 0x40FF000000011501 = false := by decide

/-- R94: 261 bytes are too many for `LOADOPB`; an index count above 2^32 has no encoding. -/
theorem test_pseudo_commands_ill_formed :
    (Pseudo.loadOpb (List.replicate 261 0)).wellFormed = false ∧ (Pseudo.readRes (2 ^ 32 + 1)).wellFormed = false ∧
    (Pseudo.readRxf (2 ^ 32 + 1)).wellFormed = false := by decide +kernel

/-- What the same checks accept. -/
theorem test_well_formed_terms :
    wellFormedWord 0x40FF000000001501 = true ∧ legalOpcode 0x44 = true ∧
    (Pseudo.loadOpb (List.replicate 260 0)).wellFormed = true ∧ (Pseudo.readRes (2 ^ 32)).wellFormed = true := by
  decide +kernel

/-- The 23 rows select different words: no two have the same opcode (R83). -/
theorem test_opcodes_differ : (opcodeTable.map Row.op).Nodup ∧ opcodeTable.length = 23 := by decide

/-! Decoding: every constructor's word, written out from R81 and R83 -/

theorem test_decode_host :
    decode 0x0000000000000000 = .ok .nop ∧ decode 0x0100000000000000 = .ok .softReset ∧
    decode 0x0200000000000000 = .ok .opbClear ∧ decode 0x0307000000000000 = .ok (.opbPush 0x07) ∧
    decode 0x0400000000000103 = .ok (.resRead 0x103) ∧ decode 0x0505000000000000 = .ok (.csrRead 0x05) ∧
    decode 0x060E00000000FFFF = .ok (.csrWrite 0x0E 0xFFFF) := by decide

theorem test_decode_crc :
    decode 0x1000000000000000 = .ok .crcInit ∧ decode 0x1102000000000000 = .ok (.crcByte 0x02) ∧
    decode 0x1200000000000000 = .ok .crcBuf ∧ decode 0x1300000000000000 = .ok .crcRead := by decide

theorem test_decode_rtu_framer :
    decode 0x2002000000000000 = .ok (.rtuEncode 0x02) ∧ decode 0x2100000000000000 = .ok .rtuDecode := by decide

theorem test_decode_rtu_link :
    decode 0x3000000000000000 = .ok .startMaster ∧ decode 0x3111000000000000 = .ok (.startSlave 0x11) ∧
    decode 0x3200000000000000 = .ok .rtuListen ∧ decode 0x3311000000000000 = .ok (.rtuSend 0x11) ∧
    decode 0x3400000000000007 = .ok (.rxfRead 7) := by decide

theorem test_decode_mbap :
    decode 0x40FF000000001501 = .ok (.mbapFormat 0xFF 0x1501) ∧ decode 0x41FF000000000000 = .ok (.mbapEncode 0xFF) ∧
    decode 0x4200000000000000 = .ok .mbapParse ∧ decode 0x4315000000000000 = .ok (.mbapPush 0x15) ∧
    decode 0x4400000000000000 = .ok .mbapStreamClear := by decide

/-- The word of `MBAP_FORMAT 0xFF, 0x1501` bit by bit: OP 01000000, A 11111111, Z, B 0...0 0001 0101 0000 0001. -/
theorem test_decode_bit_by_bit :
    decode 0b0100000011111111000000000000000000000000000000000001010100000001 = .ok (.mbapFormat 0xFF 0x1501) := by decide

theorem test_decode_table_word :
    decodeTableWord 64 0x3311000000000000 = some (.rtuSend 0x11) ∧ decodeTableWord 64 0x0700000000000000 = none := by decide

/-! The host interface commands (section 2.5) -/

theorem test_nop : returned 0x0000000000000000 base = some (0, 0) ∧ returned 0x0000000000000001 base = some (2, 0) := by decide

/-- Section 2.5: `TXN` = 0x1234, master, a pending transmit. -/
theorem test_soft_reset :
    (after 0x0100000000000000 { pendingSend with txn := 0x1234 }).role = .unset ∧
    (after 0x0100000000000000 { pendingSend with txn := 0x1234 }).pending = false ∧
    (after 0x0100000000000000 { pendingSend with txn := 0x1234 }).rxStatus = .none ∧
    (after 0x0100000000000000 { pendingSend with txn := 0x1234 }).txn = 0x1234 ∧
    (after 0x0100000000000000 { pendingSend with txn := 0x1234 }).lineTx = [] := by decide

theorem test_opb_clear : (after 0x0200000000000000 (loaded [1, 2, 3, 4, 5])).opb = [] := by decide

/-- P1: the second `OPB_PUSH`. -/
theorem test_opb_push :
    returned 0x0312000000000000 (loaded [0x41]) = some (0, 2) ∧ (after 0x0312000000000000 (loaded [0x41])).opb = [0x41, 0x12] := by
  decide

theorem test_opb_push_full :
    returned 0x0301000000000000 (loaded (List.replicate 260 0)) = some (2, 0) ∧
    (after 0x0301000000000000 (loaded (List.replicate 260 0))).opb.length = 260 := by decide +kernel

theorem test_res_read :
    returned 0x0400000000000003 { base with resb := frameV1 } = some (0, 0x12) ∧
    returned 0x0400000000000004 { base with resb := frameV1 } = some (2, 0) := by decide

theorem test_csr_read :
    returned 0x0500000000000000 base = some (0, 0xFFFF) ∧ returned 0x0505000000000000 base = some (0, 15) ∧
    returned 0x0516000000000000 base = some (2, 0) ∧ returned 0x0504000000000000 pendingSend = some (0, 3) := by decide

/-- L-7: `ACC_LEN` reads 0x8100. -/
theorem test_csr_read_acc_len :
    returned 0x050B000000000000 { awaiting with acc := List.replicate 256 0, ovf := true } = some (0, 0x8100) := by
  decide +kernel

theorem test_csr_write :
    (after 0x0606000000000000 base).tEof = 1 ∧ (after 0x0607000000000000 base).tGap = 0 ∧
    (after 0x0608000000000000 base).tResp = 1 ∧ (after 0x060E000000012345 base).txn = 0x2345 ∧
    (after 0x06140000FFFFFFFF base).ie = 0x1F ∧ (after 0x0615000000000003 base).bcast = true ∧
    returned 0x0609000000000005 base = some (2, 0) ∧ returned 0x0600000000000000 base = some (2, 0) := by decide

/-- Section 2.5: `EVT` = 0x1B, `IE` = 0x02. -/
theorem test_irq_and_event_clear :
    irq { base with evt := 0x1B, ie := 0x02 } = true ∧
    (after 0x0613000000000002 { base with evt := 0x1B, ie := 0x02 }).evt = 0x19 ∧
    irq (after 0x0613000000000002 { base with evt := 0x1B, ie := 0x02 }) = false := by decide

/-- Section 2.5: refused words change nothing. -/
theorem test_refused_words :
    returned 0xFF00000000000000 base = some (2, 0) ∧ returned 0x0307000000000001 base = some (2, 0) ∧
    (after 0x0307000000000001 base).opb = [] ∧ returned 0x1102000000000001 base = some (2, 0) ∧
    (after 0x1102000000000001 base).crc = 0xFFFF := by decide

/-! The CRC unit (section 2.1) -/

theorem test_crc_step :
    crcStep 0xFFFF 0x02 = 0x813E ∧ crcStep 0x813E 0x07 = 0x1241 ∧ crcStep 0x0000 0x00 = 0x0000 ∧
    crcStep 0x0001 0x00 = 0xC0C1 ∧ crcStep 0xFFFF 0xFF = 0x00FF ∧ crcStep 0x1234 0x56 = 0xE993 := by decide +kernel

theorem test_crc16 :
    crc16 [] = 0xFFFF ∧ crc16 [0x00] = 0x40BF ∧ crc16 [0x02, 0x07] = 0x1241 ∧ crc16 frameV1 = 0x0000 ∧
    crc16 [0x01, 0x03, 0x00, 0x00, 0x00, 0x0A] = 0xCDC5 ∧
    crc16 [0x11, 0x03, 0x06, 0xAE, 0x41, 0x56, 0x52, 0x43, 0x40] = 0xAD49 := by decide +kernel

theorem test_crc_init :
    returned 0x1000000000000000 { base with crc := 0x1241 } = some (0, 0) ∧
    (after 0x1000000000000000 { base with crc := 0x1241 }).crc = 0xFFFF := by decide

theorem test_crc_byte :
    returned 0x1102000000000000 base = some (0, 0x813E) ∧ (after 0x1102000000000000 base).crc = 0x813E := by decide +kernel

theorem test_crc_buf :
    returned 0x1200000000000000 (loaded [0x31, 0x32, 0x33, 0x34, 0x35, 0x36, 0x37, 0x38, 0x39]) = some (0, 0x4B37) ∧
    returned 0x1200000000000000 base = some (0, 0xFFFF) := by decide +kernel

theorem test_crc_read : returned 0x1300000000000000 { base with crc := 0x1241 } = some (0, 0x1241) := by decide

/-! The RTU framer (V1, V5, section 2.2) -/

theorem test_rtu_encode :
    returned 0x2002000000000000 (loaded [0x07]) = some (0, 0x1241) ∧
    (after 0x2002000000000000 (loaded [0x07])).resb = frameV1 ∧
    (after 0x20FF000000000000 (loaded [0x07])).resb = [0xFF, 0x07, 0x01, 0x82] ∧
    (after 0x2001000000000000 (loaded [0x01, 0x12, 0x34, 0x00, 0xCD])).resb =
      [0x01, 0x01, 0x12, 0x34, 0x00, 0xCD, 0xB9, 0x29] := by decide +kernel

theorem test_rtu_encode_bounds :
    returned 0x2001000000000000 base = some (2, 0) ∧
    returned 0x2001000000000000 (loaded (List.replicate 254 0)) = some (2, 0) ∧
    (after 0x2001000000000000 (loaded (List.replicate 253 0))).resb.length = 256 := by decide +kernel

theorem test_rtu_decode :
    returned 0x2100000000000000 (loaded frameV1) = some (0, 2) ∧
    (after 0x2100000000000000 (loaded frameV1)).resb = [0x07] ∧
    returned 0x2100000000000000 (loaded [0x02, 0x07, 0x41, 0x00]) = some (3, 0) ∧
    returned 0x2100000000000000 (loaded [0x02, 0x07, 0x12, 0x41]) = some (3, 0) := by decide +kernel

theorem test_rtu_decode_bounds :
    returned 0x2100000000000000 (loaded [0x02, 0x07, 0x41]) = some (4, 0) ∧
    returned 0x2100000000000000 base = some (4, 0) ∧
    returned 0x2100000000000000 (loaded (0x01 :: List.replicate 253 0 ++ [0x55, 0x1F, 0x00])) = some (4, 0) := by
  decide +kernel

/-! The RTU link unit (section 2.3) -/

/-- L-25, L-26: refused while busy. -/
theorem test_start_master :
    (after 0x3000000000000000 slave).role = .master ∧ (after 0x3000000000000000 slave).unitId = 0 ∧
    returned 0x3000000000000000 awaiting = some (2, 0) := by decide

/-- L-24. -/
theorem test_start_slave :
    returned 0x3100000000000000 base = some (2, 0) ∧ returned 0x31F8000000000000 base = some (2, 0) ∧
    returned 0x31F7000000000000 base = some (0, 0) ∧ (after 0x3101000000000000 base).unitId = 1 ∧
    (after 0x3111000000000000 base).role = .slave ∧ returned 0x3103000000000000 pendingSend = some (2, 0) := by decide

/-- L-23, L-24. -/
theorem test_rtu_listen :
    (after 0x3200000000000000 slave).rxState = .listen ∧ returned 0x3200000000000000 slave = some (0, 0) ∧
    returned 0x3200000000000000 base = some (2, 0) ∧ returned 0x3200000000000000 master = some (2, 0) := by decide

/-- The example of R145, and L-18. -/
theorem test_rtu_send_at_once :
    returned 0x3302000000000000 master = some (0, 4) ∧ (after 0x3302000000000000 master).lineTx = [frameV1] ∧
    (after 0x3302000000000000 master).rxState = .await ∧ (after 0x3302000000000000 master).evt = 0x08 ∧
    (after 0x3300000000000000 master).lineTx = [[0x00, 0x07, 0x40, 0x72]] ∧
    (after 0x3300000000000000 master).rxState = .idle ∧ (after 0x3300000000000000 master).rxStatus = .none := by
  decide +kernel

/-- L-14, L-23, L-27. -/
theorem test_rtu_send_waits_or_fails :
    returned 0x3302000000000000 { master with silence := 4 } = some (0, 4) ∧
    (after 0x3302000000000000 { master with silence := 4 }).pending = true ∧
    (after 0x3302000000000000 { master with silence := 4 }).armAwait = true ∧
    (after 0x3302000000000000 { master with silence := 4 }).lineTx = [] ∧
    returned 0x3301000000000000 (loaded [0x07]) = some (2, 0) ∧
    returned 0x3302000000000000 { master with opb := [] } = some (2, 0) := by decide +kernel

/-- The example of R146. -/
theorem test_rxf_read :
    returned 0x3400000000000000 { base with rxf := [0x07] } = some (0, 7) ∧
    returned 0x3400000000000001 { base with rxf := [0x07] } = some (2, 0) ∧ returned 0x3400000000000000 base = some (2, 0) := by
  decide

/-- The example of R143, L-7 and L-13: accumulated, dropped at 256 bytes, discarded in IDLE. -/
theorem test_line_rx :
    (lineRx 0x02 { awaiting with silence := 40 }).acc = [0x02] ∧ (lineRx 0x02 { awaiting with silence := 40 }).silence = 0 ∧
    (lineRx 0x00 { awaiting with acc := List.replicate 256 0 }).ovf = true ∧
    (lineRx 0x00 { awaiting with acc := List.replicate 256 0 }).acc.length = 256 ∧
    (lineRx 0x99 { base with silence := 3 }).acc = [] ∧ (lineRx 0x99 { base with silence := 3 }).silence = 0 := by
  decide +kernel

/-- L-1 and L-2: the third tick of silence delivers, the second does not. -/
theorem test_tick_delivers :
    (tick { awaiting with acc := frameV1, silence := 2 }).rxState = .idle ∧
    (tick { awaiting with acc := frameV1, silence := 2 }).rxStatus = .ok ∧
    (tick { awaiting with acc := frameV1, silence := 2 }).rxf = [0x07] ∧
    (tick { awaiting with acc := frameV1, silence := 2 }).rxAddr = 2 ∧
    (tick { awaiting with acc := frameV1, silence := 2 }).evt = 0x09 ∧
    (tick { awaiting with acc := frameV1, silence := 1 }).acc = frameV1 := by decide +kernel

/-- L-4, L-6, L-7 and L-20. -/
theorem test_tick_decode_errors :
    (tick { awaiting with acc := [0x02, 0x07], silence := 2 }).rxStatus = .invalidDataLength ∧
    (tick { awaiting with acc := [0x02, 0x07], silence := 2 }).evt = 0x0A ∧
    (tick { awaiting with acc := [0x02, 0x07, 0x41, 0x00], silence := 2 }).rxStatus = .invalidData ∧
    (tick { awaiting with acc := List.replicate 256 0, ovf := true, silence := 2 }).rxStatus = .invalidDataLength ∧
    (tick { listening with acc := [0x05, 0x07, 0x00, 0x00], silence := 2 }).rxState = .idle ∧
    (tick { listening with acc := [0x05, 0x07, 0x00, 0x00], silence := 2 }).evt = 0x02 := by decide +kernel

/-- L-9, L-10, L-11 and L-19. -/
theorem test_tick_response_wait :
    (tick { awaiting with wait := 18 }).rxState = .await ∧ (tick { awaiting with wait := 18 }).wait = 19 ∧
    (tick { awaiting with wait := 19 }).rxStatus = .noResponse ∧ (tick { awaiting with wait := 19 }).evt = 0x0C ∧
    (tick { awaiting with acc := [0x02], wait := 6 }).wait = 6 ∧
    (tick { listening with silence := 999 }).rxState = .listen ∧ (tick { listening with silence := 999 }).wait = 0 := by
  decide +kernel

/-- L-21 and L-22: a frame to unit 0, by `CFG.BCAST`. -/
theorem test_tick_slave_filter :
    (tick { listening with acc := [0x00, 0x05, 0xDE, 0xAD, 0xFF, 0x00, 0x26, 0x22], silence := 2 }).rxState = .listen ∧
    (tick { listening with acc := [0x00, 0x05, 0xDE, 0xAD, 0xFF, 0x00, 0x26, 0x22], silence := 2 }).evt = 0x10 ∧
    (tick { listening with acc := [0x00, 0x05, 0xDE, 0xAD, 0xFF, 0x00, 0x26, 0x22], silence := 2, bcast := true }).rxf =
      [0x05, 0xDE, 0xAD, 0xFF, 0x00] ∧
    (tick { listening with acc := [0x00, 0x05, 0xDE, 0xAD, 0xFF, 0x00, 0x26, 0x22], silence := 2, bcast := true }).evt =
      0x01 := by decide +kernel

/-- L-15 and L-16. -/
theorem test_tick_gap :
    (tick { pendingSend with silence := 3 }).pending = true ∧ (tick { pendingSend with silence := 3 }).lineTx = [] ∧
    (tick { pendingSend with silence := 4 }).lineTx = [frameV1] ∧ (tick { pendingSend with silence := 4 }).silence = 0 ∧
    (tick { pendingSend with silence := 4 }).rxState = .await ∧ (tick { pendingSend with silence := 4 }).evt = 0x08 := by
  decide

/-- L-12 and L-13: a byte and a tick that coincide, in either order. -/
theorem test_coincident_inputs :
    (tick (lineRx 0x99 { awaiting with acc := frameV1, silence := 2 })).acc = [0x02, 0x07, 0x41, 0x12, 0x99] ∧
    (lineRx 0x99 (tick { awaiting with acc := frameV1, silence := 2 })).rxf = [0x07] ∧
    (lineRx 0x99 (tick { awaiting with acc := frameV1, silence := 2 })).acc = [] := by decide +kernel

/-- A tick and a byte taken by the step (R76). -/
theorem test_step_takes_events :
    step { base with inputs := [.tick] } = .next { base with silence := 1 } ∧
    step { base with silence := 7, inputs := [.lineRx 0x55, .tick] } = .next { base with inputs := [.tick] } ∧
    step base = .next base := ⟨rfl, rfl, rfl⟩

/-! The MBAP unit (V2, section 2.4) -/

theorem test_mbap_format :
    returned 0x40FF000000001501 (loaded [0x03, 0x00, 0x04, 0x00, 0x01]) = some (0, 12) ∧
    (after 0x40FF000000001501 (loaded [0x03, 0x00, 0x04, 0x00, 0x01])).resb =
      [0x15, 0x01, 0x00, 0x00, 0x00, 0x06, 0xFF, 0x03, 0x00, 0x04, 0x00, 0x01] ∧
    returned 0x40FF000000011501 (loaded [0x07]) = some (2, 0) := by decide

theorem test_mbap_format_bounds :
    returned 0x400100000000FFFF (loaded (List.replicate 253 0)) = some (0, 260) ∧
    (after 0x400100000000FFFF (loaded (List.replicate 253 0))).resb.take 7 = [0xFF, 0xFF, 0x00, 0x00, 0x00, 0xFE, 0x01] ∧
    returned 0x4001000000000000 (loaded (List.replicate 254 0)) = some (2, 0) := by decide +kernel

theorem test_mbap_encode :
    returned 0x4101000000000000 { loaded [0x11, 0x83, 0x02] with txn := 0xFFFF } = some (0, 0xFFFF) ∧
    (after 0x4101000000000000 { loaded [0x11, 0x83, 0x02] with txn := 0xFFFF }).txn = 0x0000 ∧
    (after 0x4101000000000000 { loaded [0x11, 0x83, 0x02] with txn := 0xFFFF }).resb =
      [0xFF, 0xFF, 0x00, 0x00, 0x00, 0x04, 0x01, 0x11, 0x83, 0x02] := by decide

/-- P3: a failed encode keeps the counter. -/
theorem test_mbap_encode_fails :
    returned 0x4101000000000000 { base with txn := 1 } = some (2, 0) ∧ (after 0x4101000000000000 { base with txn := 1 }).txn = 1 := by
  decide

theorem test_mbap_parse :
    returned 0x4200000000000000 (loaded [0x15, 0x01, 0x00, 0x00, 0x00, 0x06, 0xFF, 0x03, 0x00, 0x04, 0x00, 0x01]) =
      some (0, 0x150100FF) ∧
    (after 0x4200000000000000 (loaded [0x15, 0x01, 0x00, 0x00, 0x00, 0x06, 0xFF, 0x03, 0x00, 0x04, 0x00, 0x01])).resb =
      [0x03, 0x00, 0x04, 0x00, 0x01] ∧
    returned 0x4200000000000000 (loaded [0x15, 0x01, 0x00, 0x01, 0x00, 0x06, 0xFF]) = some (3, 0) := by decide

theorem test_mbap_parse_lengths :
    returned 0x4200000000000000 (loaded [0x15, 0x01, 0x00, 0x00, 0x00, 0x06]) = some (1, 0) ∧
    returned 0x4200000000000000 (loaded [0x00, 0x01, 0x00, 0x00, 0x00, 0x01, 0xFF]) = some (4, 0) ∧
    returned 0x4200000000000000 (loaded [0x00, 0x01, 0x00, 0x00, 0x00, 0xFF, 0xFF]) = some (4, 0) ∧
    returned 0x4200000000000000 (loaded [0x00, 0x01, 0x00, 0x00, 0x00, 0x02, 0x09]) = some (1, 0) ∧
    returned 0x4200000000000000 (loaded [0x00, 0x01, 0x00, 0x00, 0x00, 0x02, 0x09, 0x07]) = some (0, 0x00010009) ∧
    returned 0x4200000000000000 (loaded [0x00, 0x01, 0x00, 0x00, 0x00, 0x02, 0x09, 0x07, 0x08]) = some (4, 0) := by decide

/-- Section 2.4, stream: the last byte of V2. -/
theorem test_mbap_push_completes :
    returned 0x4301000000000000 { base with mrx := [0x15, 0x01, 0x00, 0x00, 0x00, 0x06, 0xFF, 0x03, 0x00, 0x04, 0x00] } =
      some (0, 0x150100FF) ∧
    (after 0x4301000000000000 { base with mrx := [0x15, 0x01, 0x00, 0x00, 0x00, 0x06, 0xFF, 0x03, 0x00, 0x04, 0x00] }).mrx = [] ∧
    (after 0x4301000000000000 { base with mrx := [0x15, 0x01, 0x00, 0x00, 0x00, 0x06, 0xFF, 0x03, 0x00, 0x04, 0x00] }).resb =
      [0x03, 0x00, 0x04, 0x00, 0x01] := by decide

/-- Section 2.4, stream: the seventh byte judges the header. -/
theorem test_mbap_push_header :
    returned 0x4306000000000000 { base with mrx := [0x00, 0x01, 0x00, 0x01, 0x00] } = some (1, 0) ∧
    returned 0x43FF000000000000 { base with mrx := [0x00, 0x01, 0x00, 0x01, 0x00, 0x06] } = some (3, 0) ∧
    (after 0x43FF000000000000 { base with mrx := [0x00, 0x01, 0x00, 0x01, 0x00, 0x06] }).mrx = [] ∧
    returned 0x43FF000000000000 { base with mrx := [0x00, 0x01, 0x00, 0x00, 0x00, 0x01] } = some (4, 0) := by decide

/-- The example of R197. -/
theorem test_mbap_stream_clear : (after 0x4400000000000000 { base with mrx := [1, 2, 3, 4, 5] }).mrx = [] := by decide

/-! The assembler (R93, R94; P1, P2, P3) -/

theorem test_assemble_commands :
    assemble "CRC_INIT ; start\n CRC_BYTE 0x02\nCSR_WRITE T_GAP, 100\nMBAP_FORMAT 0xFF, 0x1501\nRXF_READ 7" =
      some [.command 0x1000000000000000, .command 0x1102000000000000, .command 0x0607000000000064,
        .command 0x40FF000000001501, .command 0x3400000000000007] := by decide +kernel

theorem test_assemble_pseudo_and_events :
    assemble "LOADOPB 0x41, 0x12\n@rx 0x11 @tick*2\nSET_TXN 0xFFFF\nCLR_EVT 0x1F\nREADRES 2" =
      some [.command 0x0200000000000000, .command 0x0341000000000000, .command 0x0312000000000000, .lineRx 0x11, .tick, .tick,
        .command 0x060E00000000FFFF, .command 0x061300000000001F, .command 0x0400000000000000, .command 0x0400000000000001] := by
  decide +kernel

theorem test_assemble_refuses :
    assemble "RTU_ENCODE 256" = none ∧ assemble "JUMP 1" = none ∧ assemble "NOP 1" = none := by decide +kernel

/-! Witnesses: for each obligation with hypotheses, concrete states and operands that meet them, clause by clause, at the
bounds of their ranges -/

theorem frameV1_is_frame : IsRtuFrame frameV1 := ⟨0x02, [0x07], by decide, by decide, by decide +kernel⟩

/-- `StepKeepsInvariant`, `LinkMovesAreTheTables`, `EventBitsAreSticky`: the invariant holds of an idle,
a waiting, an awaiting and a listening state. -/
theorem witness_invariant : MachineInv base ∧ MachineInv pendingSend ∧ MachineInv awaiting ∧ MachineInv listening := by
  refine ⟨?_, ?_, ?_, ?_⟩
  · exact ⟨by decide, by decide, by decide, by decide, by decide, by decide, by decide, by decide, nofun,
      .inl rfl, nofun, by decide, by decide, by decide, by decide, by decide, by decide, by decide⟩
  · exact ⟨by decide, by decide, by decide, by decide, by decide, by decide, by decide, by decide, fun _ => frameV1_is_frame,
      .inr frameV1_is_frame, nofun, by decide, by decide, by decide, by decide, by decide, by decide, by decide⟩
  · exact ⟨by decide, by decide, by decide, by decide, by decide, by decide, by decide, by decide, nofun,
      .inr frameV1_is_frame, fun f h => List.mem_singleton.1 h ▸ frameV1_is_frame, by decide, by decide, by decide,
      by decide, by decide, by decide, by decide⟩
  · exact ⟨by decide, by decide, by decide, by decide, by decide, by decide, by decide, by decide, nofun,
      .inl rfl, nofun, by decide, by decide, by decide, by decide, by decide, by decide, by decide⟩

theorem witness_StepKeepsInvariant : ∃ s t, MachineInv s ∧ step s = .next t ∧ s.inputs ≠ [] := by
  have h := witness_invariant.2.1
  refine ⟨{ pendingSend with inputs := [.tick] }, _, ?_, rfl, by decide⟩
  exact ⟨h.buffers, h.slaveUnit, h.otherUnit, h.listenRole, h.awaitRole, h.pendingIdle, h.armPending, h.armRole,
    h.pendingFrame, h.txfFrame, h.lineFrames, h.rxStatusLegal, h.eofLegal, h.respLegal, h.ovfFull, h.idleEmpty,
    h.okDelivered, h.mrxPartial⟩

theorem witness_ResetMeetsInvariant : conventions.Legal := by decide

theorem witness_EncodeOfDecode : decode 0x40FF00000000FFFF = .ok (.mbapFormat 0xFF 0xFFFF) := by decide

theorem witness_DecoderAgreesWithOpcodeTable :
    (∃ w i, decode w = .ok i) ∧ ∃ w r, r ∈ opcodeTable ∧ r.selects w = true :=
  ⟨⟨0x34000000FFFFFFFF, .rxfRead 0xFFFFFFFF, by decide⟩,
    ⟨0x34000000FFFFFFFF, ⟨"RXF_READ", 0x3400000000000000, 0xFFFFFFFF00000000⟩, by decide, by decide⟩⟩

theorem witness_StepRunsTheDecodedCommand :
    ∃ (s : State) (rest : List Input) (w : CommandWord) (i : Instr), s.inputs = .command w :: rest ∧ decode w = .ok i :=
  ⟨{ base with inputs := [.command 0x3000000000000000, .tick] }, [.tick], 0x3000000000000000, .startMaster, rfl, by decide⟩

theorem witness_StepTakesEventsOrNothing :
    (∃ (s : State) (rest : List Input) (b : Byte), s.inputs = .lineRx b :: rest) ∧
    (∃ (s : State) (rest : List Input), s.inputs = .tick :: rest) ∧ ∃ s : State, s.inputs = [] :=
  ⟨⟨{ base with inputs := [.lineRx 0x99] }, [], 0x99, rfl⟩, ⟨{ base with inputs := [.tick] }, [], rfl⟩, ⟨base, rfl⟩⟩

/-- Both ends of every range of R84, and the legal opcodes next to them. -/
theorem witness_IllegalOpcodesAreRefused :
    (∃ (s : State) (rest : List Input) (w : CommandWord),
      s.inputs = .command w :: rest ∧ legalOpcode (opField w) = false) ∧
    (∀ op ∈ [0x07#8, 0x0F#8, 0x14#8, 0x1F#8, 0x22#8, 0x2F#8, 0x35#8, 0x3F#8, 0x45#8, 0xFF#8], legalOpcode op = false) ∧
    (∀ op ∈ [0x06#8, 0x10#8, 0x13#8, 0x20#8, 0x21#8, 0x30#8, 0x34#8, 0x40#8, 0x44#8], legalOpcode op = true) :=
  ⟨⟨{ base with inputs := [.command 0x4500000000000000] }, [], 0x4500000000000000, rfl, by decide⟩, by decide, by decide⟩

theorem witness_ReservedEncodingsAreRefused :
    ∃ (s : State) (rest : List Input) (w : CommandWord) (r : Row),
      s.inputs = .command w :: rest ∧ r ∈ opcodeTable ∧ opField w = r.op ∧ w &&& r.mask ≠ r.value :=
  ⟨{ base with inputs := [.command 0x40FF000000011501] }, [], 0x40FF000000011501,
    ⟨"MBAP_FORMAT", 0x4000000000000000, 0xFF00FFFFFFFF0000⟩, rfl, by decide, by decide, by decide⟩

theorem witness_AfterEitherReset :
    (∃ s t : State, exec .softReset s = .next t) ∧
    (∃ s : State, s.silence = 0 ∧ s.role ≠ .unset ∧ linkBusy s = false ∧ PduLoaded s ∧ s.tGap = 0) ∧
    (∃ s : State, s.silence = 0 ∧ s.role ≠ .unset ∧ linkBusy s = false ∧ PduLoaded s ∧ s.tGap ≠ 0 ∧ 4 < s.tGap.toNat) :=
  ⟨⟨base, _, rfl⟩, ⟨{ slave with tGap := 0 }, by decide, by decide, by decide, by decide, by decide⟩,
    ⟨slave, by decide, by decide, by decide, by decide, by decide, by decide⟩⟩

theorem witness_NopDoesNothing : ∃ w : CommandWord, opField w = 0 ∧ w ≠ 0 := ⟨0x0000000000000001, by decide, by decide⟩

theorem witness_OperandBufferCommands :
    (∃ s : State, s.opb.length < 260) ∧ (∃ s : State, s.opb.length < 260 ∧ s.opb.length = 259) ∧
    ∃ s : State, s.opb.length = 260 :=
  ⟨⟨base, by decide⟩, ⟨loaded (List.replicate 259 0), by decide +kernel, by decide +kernel⟩,
    ⟨loaded (List.replicate 260 0), by decide +kernel⟩⟩

theorem witness_BufferReads :
    (∃ (s : State) (i : Word), i.toNat < s.resb.length ∧ i.toNat + 1 = s.resb.length) ∧
    (∃ (s : State) (i : Word), s.resb.length ≤ i.toNat ∧ i.toNat = s.resb.length) ∧
    (∃ (s : State) (i : Word), i.toNat < s.rxf.length ∧ i.toNat + 1 = s.rxf.length) ∧
    (∃ (s : State) (i : Word), s.rxf.length ≤ i.toNat ∧ i.toNat = s.rxf.length) ∧
    ∃ (s : State) (i : Word), Memory.wf s = true ∧ 2 ^ 8 ≤ i.toNat :=
  ⟨⟨{ base with resb := frameV1 }, 3, by decide, by decide⟩, ⟨{ base with resb := frameV1 }, 4, by decide, by decide⟩,
    ⟨{ base with rxf := [0x07] }, 0, by decide, by decide⟩, ⟨{ base with rxf := [0x07] }, 1, by decide, by decide⟩,
    ⟨base, 256, by decide, by decide⟩⟩

theorem witness_CsrReads : (∃ s : State, Memory.wf s = true) ∧ ∃ n : Byte, 0x15 < n.toNat ∧ n.toNat = 0x16 :=
  ⟨⟨base, by decide⟩, ⟨0x16, by decide, by decide⟩⟩

theorem witness_CsrWrites :
    ∀ n ∈ [0x00#8, 0x05#8, 0x09#8, 0x0D#8, 0x0F#8, 0x12#8, 0x16#8, 0xFF#8],
      n ∉ [0x06#8, 0x07#8, 0x08#8, 0x0E#8, 0x13#8, 0x14#8, 0x15#8] := by decide

theorem witness_CrcStepIsLinear : ∃ a b : List Byte, a.length = b.length ∧ a ≠ b := ⟨[0x01], [0x02], rfl, by decide⟩

theorem witness_CrcSelfCheck :
    ∃ (s : State) (bytes : List Byte), s.opb = bytes ++ [lo8 (crc16 bytes), hi8 (crc16 bytes)] ∧ bytes ≠ [] :=
  ⟨loaded frameV1, [0x02, 0x07], by decide +kernel, by decide⟩

theorem witness_CrcUnitIsSeparate :
    (∃ s t, takeInput (.command 0x1000000000000000) s = .next t ∧ t.crc ≠ s.crc) ∧
    ∃ s s' t, UnchangedExcept [.crc] s s' ∧ takeInput (.command 0x2002000000000000) s = .next t ∧ s.crc ≠ s'.crc ∧
      decode 0x2002000000000000 = .ok (.rtuEncode 0x02) :=
  ⟨⟨{ base with crc := 0 }, _, rfl, by decide⟩,
    ⟨loaded [0x07], { loaded [0x07] with crc := 0 }, _,
      (by intro f hf; cases f <;> first | rfl | exact absurd hf (by decide)), rfl, by decide, by decide⟩⟩

theorem witness_RtuDecodeOutcomes :
    (∃ f : List Byte, (f.length < 4 ∨ 256 < f.length) ∧ f.length = 3) ∧
    (∃ f : List Byte, (f.length < 4 ∨ 256 < f.length) ∧ f.length = 257) ∧
    (∃ p : List Byte, 1 ≤ p.length ∧ p.length ≤ 253 ∧ p.length = 1) ∧
    ∃ p : List Byte, 1 ≤ p.length ∧ p.length ≤ 253 ∧ p.length = 253 :=
  ⟨⟨List.replicate 3 0, by decide⟩, ⟨List.replicate 257 0, by decide +kernel⟩, ⟨[0x07], by decide⟩, ⟨List.replicate 253 0, by decide +kernel⟩⟩

/-- `RtuRoundTrip`, `MbapRoundTripAndStream`: a PDU at each bound; and a byte of a frame that is not the last. -/
theorem witness_RoundTrips :
    (∃ p : List Byte, 1 ≤ p.length ∧ p.length ≤ 253 ∧ p.length = 253) ∧
    ∃ (s : State) (p : List Byte) (k : Nat), 1 ≤ p.length ∧ p.length ≤ 253 ∧ s.mrx = [] ∧ 0 < k ∧
      k < (mbapFormat 0x1501 0xFF p).length :=
  ⟨⟨List.replicate 253 0, by decide +kernel⟩, ⟨base, [0x07], 7, by decide, by decide, rfl, by decide, by decide⟩⟩

theorem witness_RtuDecodeAcceptsOnlyEncodings : rtuDecode frameV1 = .ok 0x02 [0x07] := by decide +kernel

/-- `RtuEncodeCommand`, `FramerCommandsRoundTrip`, `MbapEncoders`, `EncodesGetDistinctIds`: the PDU lengths 1 and 253 are
loaded PDUs, the lengths 0 and 254 are not. -/
theorem witness_PduLoaded :
    PduLoaded (loaded [0x07]) ∧ PduLoaded (loaded (List.replicate 253 0)) ∧ ¬ PduLoaded (loaded []) ∧
    ¬ PduLoaded (loaded (List.replicate 254 0)) := by
  decide +kernel

theorem witness_EncodesGetDistinctIds : ∃ i j : Nat, i < 65536 ∧ j < 65536 ∧ i ≠ j := ⟨0, 65535, by decide, by decide, by decide⟩

theorem witness_RtuDecodeCommand :
    (∃ (s : State) (addr : Byte) (pdu : List Byte), rtuDecode s.opb = .ok addr pdu) ∧
    (∃ (s : State) (e : Status), rtuDecode s.opb = .err e) ∧
    ∃ s : State, s.opb.length < 4 ∨ 256 < s.opb.length :=
  ⟨⟨loaded frameV1, 0x02, [0x07], by decide +kernel⟩, ⟨loaded [0x02, 0x07, 0x41, 0x00], .invalidData, by decide +kernel⟩,
    ⟨loaded [0x02, 0x07, 0x41], by decide⟩⟩

theorem witness_RoleCommands :
    (∃ s : State, s.rxState = .idle ∧ s.pending = false) ∧
    (∃ u : Byte, 1 ≤ u.toNat ∧ u.toNat ≤ 247 ∧ u.toNat = 1) ∧ (∃ u : Byte, 1 ≤ u.toNat ∧ u.toNat ≤ 247 ∧ u.toNat = 247) ∧
    (∃ s : State, s.rxState ≠ .idle) ∧ (∃ s : State, s.pending = true) ∧
    (∃ u : Byte, (u.toNat < 1 ∨ 247 < u.toNat) ∧ u.toNat = 0) ∧ ∃ u : Byte, (u.toNat < 1 ∨ 247 < u.toNat) ∧ u.toNat = 248 :=
  ⟨⟨base, rfl, rfl⟩, ⟨1, by decide⟩, ⟨247, by decide⟩, ⟨awaiting, by decide⟩, ⟨pendingSend, by decide⟩, ⟨0, by decide⟩,
    ⟨248, by decide⟩⟩

theorem witness_ListenCommand :
    (∃ s : State, s.role = .slave ∧ s.rxState = .idle ∧ s.pending = false) ∧ (∃ s : State, s.role ≠ .slave) ∧
    (∃ s : State, s.role = .slave ∧ s.rxState ≠ .idle) ∧ ∃ s : State, s.role = .slave ∧ s.pending = true :=
  ⟨⟨slave, rfl, rfl, rfl⟩, ⟨base, by decide⟩, ⟨listening, rfl, by decide⟩, ⟨{ slave with pending := true }, rfl, rfl⟩⟩

theorem witness_SendCommand :
    (∃ s : State, s.role ≠ .unset ∧ s.rxState = .idle ∧ s.pending = false ∧ PduLoaded s ∧ s.tGap ≤ s.silence ∧
      ¬ (s.role = .master ∧ (0 : Byte) ≠ 0)) ∧
    (∃ s : State, s.role ≠ .unset ∧ s.rxState = .idle ∧ s.pending = false ∧ PduLoaded s ∧ s.tGap = s.silence ∧
      s.role = .master ∧ (2 : Byte) ≠ 0) ∧
    (∃ s : State, s.role ≠ .unset ∧ s.rxState = .idle ∧ s.pending = false ∧ PduLoaded s ∧ s.silence + 1 = s.tGap ∧
      s.silence < s.tGap) ∧
    (∃ s : State, s.role = .unset) ∧ (∃ s : State, s.rxState ≠ .idle) ∧ (∃ s : State, s.pending = true) ∧
    ∃ s : State, ¬ PduLoaded s :=
  ⟨⟨master, by decide, by decide, by decide, by decide, by decide, by decide⟩,
    ⟨master, by decide, by decide, by decide, by decide, by decide, by decide, by decide⟩,
    ⟨{ master with silence := 4 }, by decide, by decide, by decide, by decide, by decide, by decide⟩,
    ⟨base, rfl⟩, ⟨awaiting, by decide⟩, ⟨pendingSend, rfl⟩, ⟨base, by decide⟩⟩

theorem witness_BroadcastAwaitsNothing :
    (∃ s : State, s.role = .master ∧ s.rxState = .idle ∧ s.pending = false ∧ PduLoaded s ∧ s.tGap ≤ s.silence) ∧
    ∃ s : State, s.role = .master ∧ s.rxState = .idle ∧ s.pending = false ∧ PduLoaded s ∧ s.silence < s.tGap ∧
      s.silence.toNat + 3 < s.tGap.toNat :=
  ⟨⟨master, by decide, by decide, by decide, by decide, by decide⟩,
    ⟨{ master with silence := 1 }, by decide, by decide, by decide, by decide, by decide, by decide⟩⟩

theorem witness_ByteFromTheLine :
    (∃ s : State, s.rxState = .idle) ∧ (∃ s : State, s.rxState ≠ .idle ∧ s.acc.length < 256 ∧ s.acc.length = 255) ∧
    ∃ s : State, s.rxState ≠ .idle ∧ s.acc.length = 256 :=
  ⟨⟨base, rfl⟩, ⟨{ awaiting with acc := List.replicate 255 0 }, by decide, by decide +kernel, by decide +kernel⟩,
    ⟨{ awaiting with acc := List.replicate 256 0 }, by decide, by decide +kernel⟩⟩

theorem witness_TickCountsSilence :
    (∃ s : State, s.rxState = .idle ∧ s.pending = false) ∧ (∃ s : State, s.rxState = .listen ∧ s.acc = []) ∧
    (∃ s : State, s.acc ≠ [] ∧ satInc32 s.silence < s.tEof ∧ s.pending = false) ∧
    ∃ s : State, s.rxState = .idle ∧ s.pending = true ∧ satInc32 s.silence < s.tGap :=
  ⟨⟨{ base with silence := 0xFFFFFFFF }, by decide, by decide⟩, ⟨listening, by decide, by decide⟩,
    ⟨{ awaiting with acc := [0x02], silence := 1 }, by decide, by decide, by decide⟩,
    ⟨{ pendingSend with silence := 3 }, by decide, by decide, by decide⟩⟩

theorem witness_SilenceCountsSinceActivity :
    (∃ s t, takeInput (.lineRx 0x02) s = .next t ∧ s.silence ≠ 0) ∧
    (∃ s t, takeInput .tick s = .next t ∧ t.lineTx = s.lineTx) ∧ (∃ s t, takeInput .tick s = .next t ∧ t.lineTx ≠ s.lineTx) ∧
    (∃ s t, takeInput (.command 0x3302000000000000) s = .next t ∧ t.lineTx ≠ s.lineTx) ∧
    ∃ s t, takeInput (.command 0x0100000000000000) s = .next t ∧ t.lineTx = s.lineTx ∧ t.silence ≠ s.silence :=
  ⟨⟨master, _, rfl, by decide⟩, ⟨pendingSend, _, rfl, by decide⟩, ⟨{ pendingSend with silence := 4 }, _, rfl, by decide⟩,
    ⟨master, _, rfl, by decide +kernel⟩, ⟨master, _, rfl, by decide, by decide⟩⟩

/-- The state in which the next tick ends the accumulated frame. -/
def frameEnding (s : State) (bytes : List Byte) : State := { s with acc := bytes, silence := 2 }

theorem witness_EndOfFrame :
    (∃ s : State, s.rxState ≠ .idle ∧ s.acc ≠ [] ∧ s.tEof ≤ satInc32 s.silence ∧ s.pending = false ∧ s.ovf = true) ∧
    (∃ s : State, s.rxState ≠ .idle ∧ s.acc ≠ [] ∧ s.tEof ≤ satInc32 s.silence ∧ s.pending = false ∧ s.ovf = false ∧
      ∃ e, rtuDecode s.acc = .err e) ∧
    (∃ s : State, s.acc ≠ [] ∧ s.tEof ≤ satInc32 s.silence ∧ s.pending = false ∧ s.ovf = false ∧
      rtuDecode s.acc = .ok 0x02 [0x07] ∧ s.rxState = .await) ∧
    (∃ s : State, s.acc ≠ [] ∧ s.tEof ≤ satInc32 s.silence ∧ s.pending = false ∧ s.ovf = false ∧
      rtuDecode s.acc = .ok 0x00 [0x07] ∧ s.rxState = .listen ∧ (0x00 = s.unitId ∨ ((0x00 : Byte) = 0 ∧ s.bcast = true))) ∧
    ∃ s : State, s.acc ≠ [] ∧ s.tEof ≤ satInc32 s.silence ∧ s.pending = false ∧ s.ovf = false ∧
      rtuDecode s.acc = .ok 0x02 [0x07] ∧ s.rxState = .listen ∧ ¬ (0x02 = s.unitId ∨ ((0x02 : Byte) = 0 ∧ s.bcast = true)) :=
  ⟨⟨{ frameEnding awaiting frameV1 with ovf := true }, by decide, by decide, by decide, by decide, by decide⟩,
    ⟨frameEnding awaiting [0x02, 0x07, 0x41, 0x00], by decide, by decide, by decide, by decide, by decide, .invalidData,
      by decide +kernel⟩,
    ⟨frameEnding awaiting frameV1, by decide, by decide, by decide, by decide, by decide +kernel, by decide⟩,
    ⟨{ frameEnding listening [0x00, 0x07, 0x40, 0x72] with bcast := true }, by decide, by decide, by decide, by decide,
      by decide +kernel, by decide, by decide⟩,
    ⟨frameEnding listening frameV1, by decide, by decide, by decide, by decide, by decide +kernel, by decide, by decide⟩⟩

theorem witness_ResponseTimeout :
    (∃ s : State, s.rxState = .await ∧ s.acc = [] ∧ s.pending = false ∧ s.wait < s.tResp ∧ s.wait + 1 = s.tResp) ∧
    (∃ s : State, s.rxState = .await ∧ s.acc = [] ∧ s.pending = false ∧ s.wait < s.tResp ∧ s.wait.toNat + 19 < s.tResp.toNat) ∧
    (∃ s : State, s.acc ≠ [] ∧ s.pending = false) ∧
    ∃ s : State, s.rxState = .listen ∧ s.acc = [] ∧ s.pending = false :=
  ⟨⟨{ awaiting with wait := 19 }, by decide, by decide, by decide, by decide, by decide⟩,
    ⟨awaiting, by decide, by decide, by decide, by decide, by decide⟩,
    ⟨{ awaiting with acc := [0x02] }, by decide, by decide⟩, ⟨listening, by decide, by decide, by decide⟩⟩

theorem witness_GapWait :
    (∃ s : State, s.pending = true ∧ s.rxState = .idle ∧ s.silence < s.tGap ∧ s.silence.toNat + 4 < s.tGap.toNat ∧
      s.armAwait = true) ∧
    (∃ s : State, s.pending = true ∧ s.rxState = .idle ∧ s.silence < s.tGap ∧ s.armAwait = false) ∧
    (∃ (s : State) (k : Nat), s.pending = true ∧ s.rxState = .idle ∧ k < s.tGap.toNat) ∧
    ∃ s : State, s.pending = true ∧ s.rxState = .idle ∧ s.tGap ≠ 0 :=
  ⟨⟨pendingSend, by decide, by decide, by decide, by decide, by decide⟩,
    ⟨{ pendingSend with armAwait := false }, by decide, by decide, by decide, by decide⟩,
    ⟨pendingSend, 4, by decide, by decide, by decide⟩, ⟨pendingSend, by decide, by decide, by decide⟩⟩

/-- L-3: silences of two ticks in the frame; to the master, to the slave and to another unit. -/
theorem witness_ReceivedFrameReachesTheHost :
    (awaiting.rxState ≠ .idle ∧ awaiting.acc = [] ∧ awaiting.ovf = false ∧ awaiting.pending = false ∧ awaiting.tEof ≠ 0 ∧
      [((0x02 : Byte), 2), (0x07, 2), (0x41, 0)].map Prod.fst ++ [0x12] = rtuEncode 0x02 [0x07] ∧
      (∀ g ∈ [((0x02 : Byte), 2), (0x07, 2), (0x41, 0)], g.2 < awaiting.tEof.toNat) ∧ acceptsAddress 0x02 awaiting = true) ∧
    listening.rxState ≠ .idle ∧ listening.acc = [] ∧ listening.ovf = false ∧ listening.pending = false ∧
      listening.tEof ≠ 0 ∧ acceptsAddress 0x11 listening = true ∧ acceptsAddress 0x02 listening = false := by
  decide +kernel

/-- `LinkMovesAreTheTables`, `EventBitsAreSticky`, `InputsWriteOnlyTheirFields`: an event bit that a tick sets, and one that a
write clears. -/
theorem witness_EventBitsAreSticky :
    (∃ s t, MachineInv s ∧ takeInput .tick s = .next t ∧ hasEvent .txDone s.evt = false ∧ hasEvent .txDone t.evt = true) ∧
    ∃ s t, MachineInv s ∧ takeInput (.command 0x061300000000001F) s = .next t ∧ hasEvent .txDone s.evt = true ∧
      hasEvent .txDone t.evt = false := by
  have h := witness_invariant.2.1
  refine ⟨⟨{ pendingSend with silence := 4 }, _, ?_, rfl, by decide, by decide⟩,
    ⟨awaiting, _, witness_invariant.2.2.1, rfl, by decide, by decide⟩⟩
  exact ⟨h.buffers, h.slaveUnit, h.otherUnit, h.listenRole, h.awaitRole, h.pendingIdle, h.armPending, h.armRole,
    h.pendingFrame, h.txfFrame, h.lineFrames, h.rxStatusLegal, h.eofLegal, h.respLegal, h.ovfFull, h.idleEmpty,
    h.okDelivered, h.mrxPartial⟩

theorem witness_MbapParseOutcomes :
    (∃ buf : List Byte, buf.length < 7 ∧ buf.length = 6) ∧ (∃ buf : List Byte, buf.length < 7 ∧ buf = []) :=
  ⟨⟨[0x15, 0x01, 0x00, 0x00, 0x00, 0x06], by decide⟩, ⟨[], by decide⟩⟩

theorem witness_MbapParseCommand :
    (∃ (s : State) (id : Half) (u : Byte) (pdu : List Byte), mbapParse s.opb = .frame id u pdu) ∧ (∃ s : State, mbapParse s.opb = .tooShort) ∧
    ∃ (s : State) (e : Status), mbapParse s.opb = .err e :=
  ⟨⟨loaded [0x00, 0x01, 0x00, 0x00, 0x00, 0x02, 0x09, 0x07], 0x0001, 0x09, [0x07], by decide⟩,
    ⟨loaded [0x00, 0x01, 0x00, 0x00, 0x00, 0x02, 0x09], by decide⟩,
    ⟨loaded [0x15, 0x01, 0x00, 0x01, 0x00, 0x06, 0xFF], .invalidData, by decide⟩⟩

theorem witness_MbapStreamCommands :
    (∃ (s : State) (b : Byte), s.mrx.length < 260 ∧ mbapParse (s.mrx ++ [b]) = .tooShort) ∧
    (∃ (s : State) (b : Byte) (e : Status), s.mrx.length < 260 ∧ mbapParse (s.mrx ++ [b]) = .err e) ∧
    (∃ (s : State) (b : Byte) (id : Half) (u : Byte) (pdu : List Byte),
      s.mrx.length < 260 ∧ mbapParse (s.mrx ++ [b]) = .frame id u pdu) ∧
    ∃ s : State, s.mrx.length = 260 :=
  ⟨⟨base, 0x15, by decide, by decide⟩,
    ⟨{ base with mrx := [0x00, 0x01, 0x00, 0x01, 0x00, 0x06] }, 0xFF, .invalidData, by decide, by decide⟩,
    ⟨{ base with mrx := [0x00, 0x01, 0x00, 0x00, 0x00, 0x02, 0x09] }, 0x07, 0x0001, 0x09, [0x07], by decide, by decide⟩,
    ⟨{ base with mrx := List.replicate 260 0 }, by decide +kernel⟩⟩

theorem witness_TxnChangesOnlyBy :
    (∃ s t, takeInput (.command 0x4101000000000000) s = .next t ∧ t.txn ≠ s.txn) ∧
    ∃ s t, takeInput (.command 0x060E00000000FFFF) s = .next t ∧ t.txn ≠ s.txn :=
  ⟨⟨loaded [0x07], _, rfl, by decide⟩, ⟨base, _, rfl, by decide⟩⟩

theorem witness_FailingCommandsWriteNothing :
    (∃ s t st d, takeInput (.command 0x3200000000000000) s = .next t ∧ t.resp = some ⟨st, d⟩ ∧ st ≠ .ok ∧
      st ≠ .tooShortData) ∧
    (∃ s t st d, takeInput (.command 0x0700000000000000) s = .next t ∧ t.resp = some ⟨st, d⟩ ∧ st ≠ .ok ∧
      st ≠ .tooShortData) ∧
    ∃ s t st d, takeInput (.command 0x43FF000000000000) s = .next t ∧ t.resp = some ⟨st, d⟩ ∧ st ≠ .ok ∧
      st ≠ .tooShortData :=
  ⟨⟨base, _, .invalidValue, 0, rfl, by decide, by decide, by decide⟩,
    ⟨base, _, .invalidValue, 0, rfl, by decide, by decide, by decide⟩,
    ⟨{ base with mrx := [0x00, 0x01, 0x00, 0x01, 0x00, 0x06] }, _, .invalidData, 0, rfl, by decide, by decide, by decide⟩⟩

theorem witness_InputsWriteOnlyTheirFields :
    ∃ s a t b, takeInput a s = .next t ∧ bufferField b ∉ inputWrites a :=
  ⟨base, .command 0x0307000000000000, _, .resb, rfl, by decide⟩

theorem witness_OutputRecordsAreNeverRead :
    ∃ s s' a t, UnchangedExcept [.resp, .lineTx] s s' ∧ takeInput a s = .next t ∧ s.lineTx ≠ s'.lineTx :=
  ⟨pendingSend, { pendingSend with lineTx := [frameV1], resp := some ⟨.ok, 0⟩ }, .tick, _,
    (by intro f hf; cases f <;> first | rfl | exact absurd hf (by decide)), rfl, by decide⟩

theorem witness_PseudoCommands :
    (∃ bytes : List Byte, bytes.length ≤ 260 ∧ bytes.length = 260) ∧ ∃ n k : Nat, n ≤ 2 ^ 32 ∧ k < n ∧ k + 1 = n :=
  ⟨⟨List.replicate 260 0, by decide +kernel⟩, ⟨2 ^ 32, 2 ^ 32 - 1, by decide⟩⟩

theorem witness_SilenceInRealTime :
    ∃ (s : State) (period t0 j k x : Nat), s.pending = false ∧ 1 ≤ k ∧ k < 2 ^ 32 ∧ t0 + j * period ≤ x ∧
      x < t0 + (j + 1) * period :=
  ⟨awaiting, 50, 0, 3, 3, 199, rfl, by decide, by decide, by decide, by decide⟩

/-- The example of R293, in units of 0.1 µs: a tick of 50 µs, a character of 572.9 µs, a gap of 2.005 ms, and the ends of the
windows that R293 names. The byte comes between the ticks 3 and 4. -/
theorem witness_TimingWindows :
    (0 + 3 * 500 ≤ 1999 ∧ 1999 < 0 + (3 + 1) * 500) ∧
    EofWindow 500 5729 13 ∧ EofWindow 500 5729 17 ∧ ¬ EofWindow 500 5729 12 ∧ ¬ EofWindow 500 5729 18 ∧
    GapWindow 500 20050 42 ∧ ¬ GapWindow 500 20050 41 ∧
    (∃ s : State, s.rxState ≠ .idle ∧ s.pending = false ∧ s.tEof ≠ 0 ∧ EofWindow 500 5729 s.tEof) ∧
    (∃ s : State, s.rxState = .idle ∧ s.pending = true ∧ GapWindow 500 20050 s.tGap) ∧
    ∃ (s t : State) (y : Nat), s.pending = false ∧ GapWindow 2000 6000 s.tGap ∧ 0 + (3 + 4) * 2000 ≤ y ∧ 7999 < y ∧
      exec (.rtuSend 0x02) (ticks 4 (lineRx 0x02 s)) = .next t ∧ t.lineTx ≠ s.lineTx := by
  refine ⟨by decide, by decide, by decide, by decide, by decide, by decide, by decide,
    ⟨{ awaiting with tEof := 13 }, by decide, by decide, by decide, by decide⟩,
    ⟨{ pendingSend with tGap := 42 }, by decide, by decide, by decide⟩,
    { master with tGap := 4 }, _, 14000, rfl, by decide, by decide, by decide, rfl, by decide +kernel⟩

theorem witness_TimersActAtTheNextTick :
    (∃ (s : State) (v : Word), s.rxState = .await ∧ s.acc = [] ∧ s.pending = false ∧ v ≠ 0 ∧ v ≤ s.wait) ∧
    (∃ (s : State) (v : Word), s.rxState ≠ .idle ∧ s.acc ≠ [] ∧ s.pending = false ∧ v ≠ 0 ∧ v ≤ s.silence) ∧
    ∃ (s : State) (v : Word), s.rxState = .idle ∧ s.pending = true ∧ v ≤ s.silence :=
  ⟨⟨{ awaiting with wait := 7 }, 7, by decide, by decide, by decide, by decide, by decide⟩,
    ⟨frameEnding awaiting frameV1, 2, by decide, by decide, by decide, by decide, by decide⟩,
    ⟨pendingSend, 0, by decide, by decide, by decide⟩⟩

end Sys2Proof.Tests
end

section
/-! SUPPORT. The invariant of the machine is kept by every operation on the state, by every command, by a byte from the line
and by a tick. An update of fields the invariant does not speak of is `{ h with }`. -/

namespace Sys2Proof.Machine

/-! Operations on the state -/

@[simp] theorem machineInv_respond {st : Status} {d : Word} {s : State} :
    MachineInv (respond st d s) ↔ MachineInv s := ⟨fun h => { h with }, fun h => { h with }⟩

@[simp] theorem machineInv_signal {e : Event} {s : State} : MachineInv (signal e s) ↔ MachineInv s :=
  ⟨fun h => { h with }, fun h => { h with }⟩

theorem machineInv_resetWith {p : Params} (hp : p.Legal) : MachineInv (State.resetWith p) where
  buffers := memory_wf_resetWith p
  slaveUnit := nofun
  otherUnit _ := rfl
  listenRole := nofun
  awaitRole := nofun
  pendingIdle := nofun
  armPending := nofun
  armRole := nofun
  pendingFrame := nofun
  txfFrame := .inl rfl
  lineFrames := nofun
  rxStatusLegal := by simp
  eofLegal := hp.1
  respLegal := hp.2
  ovfFull := nofun
  idleEmpty _ := rfl
  okDelivered := nofun
  mrxPartial := rfl

theorem machineInv_softReset {s : State} (h : MachineInv s) : MachineInv (softReset s) :=
  { machineInv_resetWith params_legal with lineFrames := h.lineFrames }

theorem machineInv_setResult {bytes : List Byte} {s : State} (h : MachineInv s) (hb : bytes.length ≤ 260) :
    MachineInv (setResult bytes s) :=
  { h with buffers := memory_wf_setResult h.buffers hb }

theorem machineInv_mrxClear {s : State} (h : MachineInv s) : MachineInv { s with mrx := [] } :=
  { h with buffers := memory_wf_mrxClear h.buffers, mrxPartial := rfl }

/-- WARL keeps 0 out of `T_EOF` and `T_RESP` (R30, R32). -/
theorem warlAtLeastOne_ne_zero (v : Word) : warlAtLeastOne v ≠ 0 := atLeastOne_ne_zero v

/-- A write to a CSR keeps the invariant (R226): the two timers that are never 0 are clamped. -/
theorem machineInv_csrStore {r : Csr} {v : Word} {s t : State} (h : MachineInv s) (ht : csrStore r v s = some t) :
    MachineInv t := by
  cases r with
  | tEof => cases ht; exact { h with eofLegal := warlAtLeastOne_ne_zero v }
  | tResp => cases ht; exact { h with respLegal := warlAtLeastOne_ne_zero v }
  | tGap | txn | evt | ie | cfg => cases ht; exact { h with }
  | _ => cases ht

/-! The receiver and the transmitter -/

theorem machineInv_accClear {s : State} (h : MachineInv s) : MachineInv { s with acc := [], ovf := false } :=
  { h with buffers := memory_wf_accClear h.buffers, ovfFull := nofun, idleEmpty := fun _ => rfl }

/-- Arming the receiver with an empty accumulator, in the role that may arm it so (R144, R167). -/
theorem machineInv_arm {r : RxState} {s : State} (h : MachineInv s) (hp : s.pending = false) (hr : r ≠ .idle)
    (hl : r = .listen → s.role = .slave) (ha : r = .await → s.role = .master) :
    MachineInv { s with rxState := r, acc := [], ovf := false } :=
  { machineInv_accClear h with
    listenRole := hl
    awaitRole := ha
    pendingIdle := fun hp' => absurd (hp.symm.trans hp') nofun
    idleEmpty := fun hi => absurd hi hr }

/-- Ending a receive with an empty accumulator and a legal status (R154, R156, R157). -/
theorem machineInv_endReceive {st : Status} {s : State} (h : MachineInv s) (ha : s.acc = [])
    (hst : st ∈ [Status.ok, .invalidData, .invalidDataLength, .noResponse, .none]) (hok : st = .ok → s.rxf ≠ []) :
    MachineInv { s with rxState := .idle, rxStatus := st } :=
  { h with
    listenRole := nofun
    awaitRole := nofun
    pendingIdle := fun _ => rfl
    rxStatusLegal := hst
    idleEmpty := fun _ => ha
    okDelivered := hok }

theorem machineInv_deliver {addr : Byte} {pdu : List Byte} {s : State} (h : MachineInv s) (ha : s.acc = [])
    (hpos : 1 ≤ pdu.length) (hmax : pdu.length ≤ 253) : MachineInv (deliver addr pdu s) := by
  have hne : pdu ≠ [] := List.ne_nil_of_length_pos hpos
  have hrxf : MachineInv { s with rxf := pdu, rxAddr := addr } :=
    { h with buffers := memory_wf_deliver (a := addr) h.buffers hmax, okDelivered := fun _ => hne }
  exact machineInv_signal.2 (machineInv_endReceive hrxf ha (by simp) fun _ => hne)

theorem machineInv_decodeError {e : Status} {s : State} (h : MachineInv s) (ha : s.acc = [])
    (he : e = .invalidData ∨ e = .invalidDataLength) : MachineInv (decodeError e s) := by
  refine machineInv_signal.2 (machineInv_endReceive h ha ?_ ?_) <;> rcases he with rfl | rfl <;> simp

theorem machineInv_noResponseTimeout {s : State} (h : MachineInv s) (ha : s.acc = []) :
    MachineInv (noResponseTimeout s) :=
  machineInv_signal.2 (machineInv_endReceive h ha (by simp) nofun)

/-- The two failure kinds at the end of a frame (R153). -/
theorem accumulated_err {s : State} {e : Status} (h : accumulated s = .err e) :
    e = .invalidData ∨ e = .invalidDataLength := by
  unfold accumulated at h
  split at h
  · cases h; exact .inr rfl
  · exact rtuDecode_err h

/-- A received PDU is 1 to 253 bytes (R153). -/
theorem accumulated_ok_length {s : State} {addr : Byte} {pdu : List Byte} (h : accumulated s = .ok addr pdu) :
    1 ≤ pdu.length ∧ pdu.length ≤ 253 := by
  unfold accumulated at h
  split at h
  · cases h
  · exact (rtuDecode_ok_length h).2

theorem awaitingFirstByte_iff (s : State) : awaitingFirstByte s = true ↔ s.rxState = .await ∧ s.acc = [] := by
  simp [awaitingFirstByte]

theorem machineInv_endOfFrame {s : State} (h : MachineInv s) : MachineInv (endOfFrame s) := by
  have hc := machineInv_accClear h
  rcases endOfFrame_cases s with ⟨e, hacc, he⟩ | ⟨a, p, hacc, -, he⟩ | ⟨a, p, -, -, -, he⟩ <;> rw [he]
  · exact machineInv_decodeError hc rfl (accumulated_err hacc)
  · obtain ⟨hpos, hmax⟩ := accumulated_ok_length hacc
    exact machineInv_deliver hc rfl hpos hmax
  · exact machineInv_signal.2 hc

/-- The receive part of a tick (R150). -/
theorem machineInv_tickReceive {s : State} (h : MachineInv s) : MachineInv (tickReceive s) := by
  have hw : MachineInv { s with wait := satInc32 s.wait } := { h with }
  rcases tickReceive_cases s with ⟨-, e⟩ | ⟨-, hawait, -, e⟩ | ⟨-, -, -, e⟩ | ⟨-, -, e⟩ <;> rw [e]
  · exact machineInv_endOfFrame h
  · obtain ⟨-, hempty⟩ := (awaitingFirstByte_iff s).1 hawait
    exact machineInv_noResponseTimeout hw hempty
  · exact hw
  · exact h

/-- An emission does not read `PENDING` (R167). -/
theorem emit_setPending (p : Bool) (s : State) : emit { s with pending := p } = emit s := rfl

/-- An emission of a pending frame (R167): what goes on the line is a frame, and it arms the receiver of a master only. -/
theorem machineInv_emit {s : State} (h : MachineInv s) (hp : s.pending = true) : MachineInv (emit s) := by
  have hsent : MachineInv { s with lineTx := s.lineTx ++ [s.txf], silence := 0, pending := false, armAwait := false,
                                   evt := s.evt ||| eventMask .txDone } :=
    { h with
      pendingIdle := nofun
      armPending := nofun
      armRole := nofun
      pendingFrame := nofun
      lineFrames := List.forall_mem_append.2 ⟨h.lineFrames, List.forall_mem_singleton.2 (h.pendingFrame hp)⟩ }
  cases ha : s.armAwait with
  | false => rw [emit_unarmed ha]; exact hsent
  | true =>
    rw [emit_armed ha]
    exact { machineInv_arm (r := .await) hsent rfl nofun nofun fun _ => h.armRole ha with }

/-- The transmit part of a tick (R150, R158). -/
theorem machineInv_tickTransmit {s : State} (h : MachineInv s) : MachineInv (tickTransmit s) := by
  rcases tickTransmit_cases s with ⟨hp, -, e⟩ | ⟨-, e⟩ <;> rw [e]
  · exact machineInv_emit h hp
  · exact h

theorem machineInv_tick {s : State} (h : MachineInv s) : MachineInv (tick s) :=
  machineInv_tickTransmit (machineInv_tickReceive { h with })

/-- A byte from the line (R143): only an armed receiver accumulates, and it overflows only at 256 bytes. -/
theorem machineInv_lineRx {b : Byte} {s : State} (h : MachineInv s) : MachineInv (lineRx b s) := by
  have hbuf := memory_wf_lineRx (b := b) h.buffers
  obtain ⟨-, -, hmax, -⟩ := (memory_wf_iff s).1 h.buffers
  rcases lineRx_cases b s with ⟨-, e⟩ | ⟨harm, hlt, e⟩ | ⟨-, hge, e⟩ <;> rw [e] at hbuf ⊢
  · exact { h with }
  · have hidle : s.rxState ≠ .idle := by rcases (armed_iff s).1 harm with hr | hr <;> simp [hr]
    exact { h with
      buffers := hbuf
      ovfFull := fun ho => absurd (h.ovfFull ho) hlt.ne
      idleEmpty := fun hi => absurd hi hidle }
  · exact { h with ovfFull := fun _ => le_antisymm hmax hge }

/-- A send by an idle link (R145): with the frame in `TXF` the transmit is pending, or emitted at once as a pending one is. -/
theorem machineInv_sendOrWait {a : Byte} {pdu : List Byte} {s : State} (h : MachineInv s) (hi : s.rxState = .idle)
    (hpos : 1 ≤ pdu.length) (hmax : pdu.length ≤ 253) :
    MachineInv (sendOrWait { s with txf := rtuEncode a pdu, armAwait := decide (s.role = .master ∧ a ≠ 0) }) := by
  have hframe : IsRtuFrame (rtuEncode a pdu) := ⟨a, pdu, hpos, hmax, rfl⟩
  have hwait : MachineInv { s with txf := rtuEncode a pdu, armAwait := decide (s.role = .master ∧ a ≠ 0),
                                   pending := true } :=
    { h with
      buffers := memory_wf_txf h.buffers hmax
      pendingIdle := fun _ => hi
      armPending := fun _ => rfl
      armRole := fun harm => (of_decide_eq_true harm).1
      pendingFrame := fun _ => hframe
      txfFrame := .inr hframe }
  unfold sendOrWait
  split
  · rw [← emit_setPending true]
    exact machineInv_emit hwait rfl
  · exact hwait

/-! Commands -/

/-- Whatever state a result answers has the invariant. -/
def AnswersInv (r : Result) : Prop := ∀ t, r = .next t → MachineInv t

@[simp] theorem answersInv_next {s : State} : AnswersInv (.next s) ↔ MachineInv s :=
  ⟨fun h => h s rfl, fun h t ht => by cases ht; exact h⟩

@[simp] theorem answersInv_done {d : Word} {s : State} : AnswersInv (done d s) ↔ MachineInv s := by simp [done_eq]

@[simp] theorem answersInv_raise {st : Status} {s : State} : AnswersInv (raise st s) ↔ MachineInv s := by simp [raise_eq]

theorem answersInv_opbPush {b : Byte} {s : State} (h : MachineInv s) : AnswersInv (execOpbPush b s) := by
  unfold execOpbPush
  split
  · exact answersInv_raise.2 h
  · next hfull => exact answersInv_done.2 { h with buffers := memory_wf_opbPush h.buffers (not_le.1 hfull) }

theorem answersInv_csrWrite {n : Byte} {v : Word} {s : State} (h : MachineInv s) : AnswersInv (execCsrWrite n v s) := by
  unfold execCsrWrite
  split
  · exact answersInv_raise.2 h
  · next ht =>
    obtain ⟨r, -, hstore⟩ := Option.bind_eq_some_iff.1 ht
    exact answersInv_done.2 (machineInv_csrStore h hstore)

theorem answersInv_rtuEncode {a : Byte} {s : State} (h : MachineInv s) : AnswersInv (execRtuEncode a s) := by
  unfold execRtuEncode
  split
  · exact answersInv_raise.2 h
  · next pdu hpdu =>
    obtain ⟨-, -, hmax⟩ := operandPdu_eq_some hpdu
    exact answersInv_done.2 (machineInv_setResult h (by rw [rtuEncode_length]; omega))

theorem answersInv_rtuDecode {s : State} (h : MachineInv s) : AnswersInv (execRtuDecode s) := by
  unfold execRtuDecode
  split
  · exact answersInv_raise.2 h
  · next hdec =>
    obtain ⟨-, -, hmax⟩ := rtuDecode_ok_length hdec
    exact answersInv_done.2 (machineInv_setResult h (by omega))

theorem answersInv_startMaster {s : State} (h : MachineInv s) : AnswersInv (execStartMaster s) := by
  unfold execStartMaster
  split
  · exact answersInv_raise.2 h
  · next hbusy =>
    obtain ⟨hi, -⟩ := (linkBusy_false_iff s).1 (Bool.eq_false_of_not_eq_true hbusy)
    exact answersInv_done.2
      { h with
        slaveUnit := nofun
        otherUnit := fun _ => rfl
        listenRole := fun hr => absurd (hi.symm.trans hr) nofun
        awaitRole := fun _ => rfl
        armRole := fun _ => rfl }

theorem answersInv_startSlave {u : Byte} {s : State} (h : MachineInv s) : AnswersInv (execStartSlave u s) := by
  unfold execStartSlave
  split
  · exact answersInv_raise.2 h
  · next hbusy =>
    obtain ⟨hi, hp⟩ := (linkBusy_false_iff s).1 (Bool.eq_false_of_not_eq_true hbusy)
    split
    · exact answersInv_raise.2 h
    · next hu =>
      obtain ⟨hlo, hhi⟩ := not_or.1 hu
      exact answersInv_done.2
        { h with
          slaveUnit := fun _ => ⟨not_lt.1 hlo, not_lt.1 hhi⟩
          otherUnit := fun hne => absurd rfl hne
          listenRole := fun _ => rfl
          awaitRole := fun hr => absurd (hi.symm.trans hr) nofun
          armRole := fun ha => absurd (hp.symm.trans (h.armPending ha)) nofun }

theorem answersInv_rtuListen {s : State} (h : MachineInv s) : AnswersInv (execRtuListen s) := by
  unfold execRtuListen
  split
  · exact answersInv_raise.2 h
  · next hrole =>
    split
    · exact answersInv_raise.2 h
    · next hbusy =>
      obtain ⟨-, hp⟩ := (linkBusy_false_iff s).1 (Bool.eq_false_of_not_eq_true hbusy)
      exact answersInv_done.2 (machineInv_arm h hp nofun (fun _ => not_not.1 hrole) nofun)

theorem answersInv_rtuSend {a : Byte} {s : State} (h : MachineInv s) : AnswersInv (execRtuSend a s) := by
  unfold execRtuSend
  split
  · exact answersInv_raise.2 h
  · split
    · exact answersInv_raise.2 h
    · next hbusy =>
      obtain ⟨hi, -⟩ := (linkBusy_false_iff s).1 (Bool.eq_false_of_not_eq_true hbusy)
      split
      · exact answersInv_raise.2 h
      · next pdu hpdu =>
        obtain ⟨-, hpos, hmax⟩ := operandPdu_eq_some hpdu
        exact answersInv_done.2 (machineInv_sendOrWait h hi hpos hmax)

theorem answersInv_mbapFormat {u : Byte} {t : Half} {s : State} (h : MachineInv s) :
    AnswersInv (execMbapFormat u t s) := by
  unfold execMbapFormat
  split
  · exact answersInv_raise.2 h
  · next pdu hpdu =>
    obtain ⟨-, -, hmax⟩ := operandPdu_eq_some hpdu
    exact answersInv_done.2 (machineInv_setResult h (by rw [mbapFormat_length]; omega))

theorem answersInv_mbapEncode {u : Byte} {s : State} (h : MachineInv s) : AnswersInv (execMbapEncode u s) := by
  unfold execMbapEncode
  split
  · exact answersInv_raise.2 h
  · next pdu hpdu =>
    obtain ⟨-, -, hmax⟩ := operandPdu_eq_some hpdu
    exact answersInv_done.2 (machineInv_setResult { h with } (by rw [mbapFormat_length]; omega))

theorem answersInv_mbapParse {s : State} (h : MachineInv s) : AnswersInv (execMbapParse s) := by
  unfold execMbapParse
  split
  · exact answersInv_next.2 (machineInv_respond.2 h)
  · exact answersInv_raise.2 h
  · next hparse =>
    obtain ⟨-, -, hmax⟩ := mbapParse_frame_length hparse
    exact answersInv_done.2 (machineInv_setResult h (by omega))

/-- The stream buffer keeps a byte only while the frame is incomplete (R196). -/
theorem answersInv_mbapPush {b : Byte} {s : State} (h : MachineInv s) : AnswersInv (execMbapPush b s) := by
  unfold execMbapPush
  split
  · exact answersInv_raise.2 h
  · next hfull =>
    split
    · next hparse =>
      exact answersInv_next.2 (machineInv_respond.2
        { h with buffers := memory_wf_mrxPush h.buffers (not_le.1 hfull), mrxPartial := hparse })
    · exact answersInv_raise.2 (machineInv_mrxClear h)
    · next hparse =>
      obtain ⟨-, -, hmax⟩ := mbapParse_frame_length hparse
      exact answersInv_done.2 (machineInv_setResult (machineInv_mrxClear h) (by omega))

/-- Every command keeps the invariant. -/
theorem answersInv_exec {s : State} (h : MachineInv s) (i : Instr) : AnswersInv (exec i s) := by
  cases i with
  | nop | crcRead => exact answersInv_done.2 h
  | crcInit | crcByte | crcBuf => exact answersInv_done.2 { h with }
  | resRead | csrRead | rxfRead =>
    simp only [exec, execResRead, execCsrRead, execRxfRead]
    split
    · exact answersInv_raise.2 h
    · exact answersInv_done.2 h
  | softReset => exact answersInv_done.2 (machineInv_softReset h)
  | opbClear => exact answersInv_done.2 { h with buffers := memory_wf_opbClear h.buffers }
  | mbapStreamClear => exact answersInv_done.2 (machineInv_mrxClear h)
  | opbPush => exact answersInv_opbPush h
  | csrWrite => exact answersInv_csrWrite h
  | rtuEncode => exact answersInv_rtuEncode h
  | rtuDecode => exact answersInv_rtuDecode h
  | startMaster => exact answersInv_startMaster h
  | startSlave => exact answersInv_startSlave h
  | rtuListen => exact answersInv_rtuListen h
  | rtuSend => exact answersInv_rtuSend h
  | mbapFormat => exact answersInv_mbapFormat h
  | mbapEncode => exact answersInv_mbapEncode h
  | mbapParse => exact answersInv_mbapParse h
  | mbapPush => exact answersInv_mbapPush h

/-! Inputs and the step -/

theorem answersInv_runCommand {s : State} (h : MachineInv s) (w : CommandWord) : AnswersInv (runCommand w s) := by
  unfold runCommand
  split
  · exact answersInv_raise.2 h
  · exact answersInv_exec h _

/-- Every input keeps the invariant. -/
theorem answersInv_takeInput {s : State} (h : MachineInv s) (a : Input) : AnswersInv (takeInput a s) := by
  cases a with
  | command w => exact answersInv_runCommand h w
  | lineRx b => exact answersInv_next.2 (machineInv_lineRx h)
  | tick => exact answersInv_next.2 (machineInv_tick h)

theorem answersInv_step {s : State} (h : MachineInv s) : AnswersInv (step s) := by
  unfold step
  split
  · exact answersInv_next.2 h
  · next a rest _ =>
    have hrest : MachineInv { s with inputs := rest } := { h with }
    exact answersInv_takeInput hrest a

/-- Settles O10: each command, a byte from the line and a tick keep the invariant. -/
theorem stepKeepsInvariant : Obligations.StepKeepsInvariant :=
  fun _ t h ht => answersInv_step h t ht

end Sys2Proof.Machine
end

section
/-! SUPPORT. The frame of every command and every input (spec/10_state.md sections 3 to 6): which fields each operation on
the state may write. The commands' frames are lifted to results by `AnswersWithin`. -/

namespace Sys2Proof.Machine

/-! The calculus of `UnchangedExcept` -/

theorem unchangedExcept_refl (w : List Field) (s : State) : UnchangedExcept w s s := fun f _ => by cases f <;> rfl

/-- `Field.same` is an equation of the two values, so it composes. -/
theorem Field.same_trans {f : Field} {s t u : State} (h₁ : f.same s t) (h₂ : f.same t u) : f.same s u := by
  cases f <;> exact Eq.trans h₂ h₁

theorem unchangedExcept_trans {w : List Field} {s t u : State} (h₁ : UnchangedExcept w s t)
    (h₂ : UnchangedExcept w t u) : UnchangedExcept w s u :=
  fun f hf => Field.same_trans (h₁ f hf) (h₂ f hf)

theorem unchangedExcept_mono {w w' : List Field} {s t : State} (h : UnchangedExcept w s t) (hw : w ⊆ w') :
    UnchangedExcept w' s t :=
  fun f hf => h f fun hm => hf (hw hm)

/-- The value of a field: the new one for a field of `w`, else the old one. -/
def fieldOf {α : Type} (w : List Field) (f : Field) (old new : α) : α := if f ∈ w then new else old

theorem fieldOf_eq_new {α : Type} {w : List Field} {f : Field} {old new : α} (h : f ∉ w → new = old) :
    fieldOf w f old new = new := by
  by_cases hf : f ∈ w
  · exact if_pos hf
  · exact (if_neg hf).trans (h hf).symm

/-- `s` with the fields of `w` as in `t`. -/
def withFieldsOf (w : List Field) (s t : State) : State :=
  { crc := fieldOf w .crc s.crc t.crc
    role := fieldOf w .role s.role t.role
    unitId := fieldOf w .unitId s.unitId t.unitId
    rxState := fieldOf w .rxState s.rxState t.rxState
    pending := fieldOf w .pending s.pending t.pending
    armAwait := fieldOf w .armAwait s.armAwait t.armAwait
    rxStatus := fieldOf w .rxStatus s.rxStatus t.rxStatus
    tEof := fieldOf w .tEof s.tEof t.tEof
    tGap := fieldOf w .tGap s.tGap t.tGap
    tResp := fieldOf w .tResp s.tResp t.tResp
    silence := fieldOf w .silence s.silence t.silence
    wait := fieldOf w .wait s.wait t.wait
    acc := fieldOf w .acc s.acc t.acc
    ovf := fieldOf w .ovf s.ovf t.ovf
    rxf := fieldOf w .rxf s.rxf t.rxf
    rxAddr := fieldOf w .rxAddr s.rxAddr t.rxAddr
    txf := fieldOf w .txf s.txf t.txf
    txn := fieldOf w .txn s.txn t.txn
    mrx := fieldOf w .mrx s.mrx t.mrx
    opb := fieldOf w .opb s.opb t.opb
    resb := fieldOf w .resb s.resb t.resb
    evt := fieldOf w .evt s.evt t.evt
    ie := fieldOf w .ie s.ie t.ie
    bcast := fieldOf w .bcast s.bcast t.bcast
    inputs := fieldOf w .inputs s.inputs t.inputs
    resp := fieldOf w .resp s.resp t.resp
    lineTx := fieldOf w .lineTx s.lineTx t.lineTx }

/-- `UnchangedExcept` as an equation of states, which `rfl` settles for a written-out list and a written-out update. -/
theorem unchangedExcept_iff {w : List Field} {s t : State} : UnchangedExcept w s t ↔ withFieldsOf w s t = t := by
  constructor
  · intro h
    cases t
    delta withFieldsOf
    congr 1 <;> exact fieldOf_eq_new (h _)
  · intro h f hf
    rw [← h]
    cases f <;> exact if_neg hf

/-- A buffer whose field is unchanged reads the same at every index. -/
theorem readByte_of_same {b : Buffer} {s t : State} (h : (bufferField b).same s t) (i : Nat) :
    readByte b i t = readByte b i s := by
  have hbytes : bufferBytes b t = bufferBytes b s := by cases b <;> exact h
  exact congrArg (fun bytes : List Byte => bytes[i]?) hbytes

/-! Operations on the state -/

theorem respond_frame (st : Status) (d : Word) (s : State) : UnchangedExcept [.resp] s (respond st d s) :=
  unchangedExcept_iff.2 rfl

theorem setResult_frame (bytes : List Byte) (s : State) : UnchangedExcept [.resb] s (setResult bytes s) :=
  unchangedExcept_iff.2 rfl

/-- `SOFT_RESET` may write all but `TXN.VALUE` and the ports (R221). -/
theorem softReset_frame (s : State) : UnchangedExcept (commandWrites .softReset) s (softReset s) :=
  unchangedExcept_iff.2 rfl

/-- Each writable CSR is one of these fields (R226). -/
theorem csrStore_frame {r : Csr} {v : Word} {s t : State} (h : csrStore r v s = some t) :
    UnchangedExcept [.tEof, .tGap, .tResp, .txn, .evt, .ie, .bcast] s t := by
  have hstore : (csrStore r v s).map (withFieldsOf [.tEof, .tGap, .tResp, .txn, .evt, .ie, .bcast] s) = csrStore r v s := by
    cases r <;> rfl
  rw [h] at hstore
  exact unchangedExcept_iff.2 (Option.some.inj hstore)

/-- An emission, arming the receiver or not, leaves every other field (R167). -/
theorem emit_frame (s : State) :
    UnchangedExcept [.lineTx, .silence, .pending, .armAwait, .evt, .rxState, .acc, .ovf, .wait] s (emit s) := by
  cases h : s.armAwait with
  | false => rw [emit_unarmed h]; exact unchangedExcept_iff.2 rfl
  | true => rw [emit_armed h]; exact unchangedExcept_iff.2 rfl

/-- With its frame in `TXF` a send emits or waits (R145). -/
theorem sendOrWait_frame (s : State) :
    UnchangedExcept [.pending, .armAwait, .lineTx, .silence, .evt, .rxState, .acc, .ovf, .wait] s (sendOrWait s) := by
  delta sendOrWait
  split
  · exact unchangedExcept_mono (emit_frame s) (by decide)
  · exact unchangedExcept_iff.2 rfl

theorem tickTransmit_frame (s : State) :
    UnchangedExcept [.lineTx, .silence, .pending, .armAwait, .evt, .rxState, .acc, .ovf, .wait] s (tickTransmit s) := by
  rcases tickTransmit_cases s with ⟨-, -, e⟩ | ⟨-, e⟩ <;> rw [e]
  · exact emit_frame s
  · exact unchangedExcept_refl _ s

/-- A tick counts the silence, then receives, then transmits (R150). -/
theorem tick_frame (s : State) : UnchangedExcept (inputWrites .tick) s (tick s) := by
  have hcount : UnchangedExcept (inputWrites .tick) s { s with silence := satInc32 s.silence } :=
    unchangedExcept_iff.2 rfl
  have hreceive := unchangedExcept_mono (w' := inputWrites .tick)
    (tickReceive_frame { s with silence := satInc32 s.silence }) (by decide)
  have htransmit := unchangedExcept_mono (w' := inputWrites .tick)
    (tickTransmit_frame (tickReceive { s with silence := satInc32 s.silence })) (by decide)
  exact unchangedExcept_trans (unchangedExcept_trans hcount hreceive) htransmit

/-! Commands -/

/-- Whatever state a result answers, it differs from `s` only in the port's output and in fields of `w`. -/
def AnswersWithin (w : List Field) (s : State) (r : Result) : Prop :=
  ∀ t, r = .next t → UnchangedExcept (.resp :: w) s t

/-- A command that ends by an answer writes the port's output and what it wrote before. -/
theorem answersWithin_respond {w : List Field} {s t : State} (h : UnchangedExcept w s t) (st : Status) (d : Word) :
    AnswersWithin w s (.next (respond st d t)) := by
  rintro _ ⟨⟩
  exact unchangedExcept_trans (unchangedExcept_mono h (List.subset_cons_self _ w))
    (unchangedExcept_mono (respond_frame st d t) (by simp))

theorem answersWithin_done {w : List Field} {s t : State} (h : UnchangedExcept w s t) (d : Word) :
    AnswersWithin w s (done d t) :=
  answersWithin_respond h .ok d

/-- A failing command writes nothing but the port's output (R252). -/
theorem answersWithin_raise (w : List Field) (st : Status) (s : State) : AnswersWithin w s (raise st s) :=
  answersWithin_respond (unchangedExcept_refl w s) st 0

theorem answersWithin_ite {w : List Field} {s : State} {c : Prop} [Decidable c] {r r' : Result}
    (h : AnswersWithin w s r) (h' : AnswersWithin w s r') : AnswersWithin w s (if c then r else r') := by
  by_cases hc : c
  · exact (if_pos hc).symm ▸ h
  · exact (if_neg hc).symm ▸ h'

theorem execCsrWrite_frame (n : Byte) (v : Word) (s : State) :
    AnswersWithin (commandWrites (.csrWrite n v)) s (execCsrWrite n v s) := by
  delta execCsrWrite
  cases hstore : (csrOfNumber n).bind fun r => csrStore r v s with
  | none => exact answersWithin_raise _ _ s
  | some t =>
    obtain ⟨r, -, hr⟩ := Option.bind_eq_some_iff.1 hstore
    exact answersWithin_done (csrStore_frame hr) 0

theorem execRtuSend_frame (a : Byte) (s : State) : AnswersWithin (commandWrites (.rtuSend a)) s (execRtuSend a s) := by
  refine answersWithin_ite (answersWithin_raise _ _ s) (answersWithin_ite (answersWithin_raise _ _ s) ?_)
  cases operandPdu s with
  | none => exact answersWithin_raise _ _ s
  | some pdu =>
    have hload : UnchangedExcept (commandWrites (.rtuSend a)) s
        { s with txf := rtuEncode a pdu, armAwait := decide (s.role = .master ∧ a ≠ 0) } :=
      unchangedExcept_iff.2 rfl
    exact answersWithin_done
      (unchangedExcept_trans hload (unchangedExcept_mono (sendOrWait_frame _) (List.subset_cons_self Field.txf _))) _

theorem execMbapPush_frame (b : Byte) (s : State) :
    AnswersWithin (commandWrites (.mbapPush b)) s (execMbapPush b s) := by
  refine answersWithin_ite (answersWithin_raise _ _ s) ?_
  cases mbapParse (s.mrx ++ [b]) with
  | tooShort => exact answersWithin_respond (unchangedExcept_iff.2 rfl) _ _
  | err e => exact answersWithin_respond (unchangedExcept_iff.2 rfl) _ _
  | frame t u pdu => exact answersWithin_done (unchangedExcept_iff.2 rfl) _

/-- Every command writes the port's output and no field but those of its rule. -/
theorem exec_frame (i : Instr) (s : State) : AnswersWithin (commandWrites i) s (exec i s) := by
  cases i with
  | nop | crcRead => exact answersWithin_done (unchangedExcept_refl _ s) _
  | softReset => exact answersWithin_done (softReset_frame s) 0
  | opbClear | crcInit | crcByte | crcBuf | mbapStreamClear => exact answersWithin_done (unchangedExcept_iff.2 rfl) _
  | opbPush | startMaster =>
    exact answersWithin_ite (answersWithin_raise _ _ s) (answersWithin_done (unchangedExcept_iff.2 rfl) _)
  | startSlave | rtuListen =>
    exact answersWithin_ite (answersWithin_raise _ _ s)
      (answersWithin_ite (answersWithin_raise _ _ s) (answersWithin_done (unchangedExcept_iff.2 rfl) _))
  | resRead k =>
    show AnswersWithin _ s (execResRead k s)
    delta execResRead
    cases readByte .resb (operandIndex k) s with
    | none => exact answersWithin_raise _ _ s
    | some _ => exact answersWithin_done (unchangedExcept_refl _ s) _
  | rxfRead k =>
    show AnswersWithin _ s (execRxfRead k s)
    delta execRxfRead
    cases readByte .rxf (operandIndex k) s with
    | none => exact answersWithin_raise _ _ s
    | some _ => exact answersWithin_done (unchangedExcept_refl _ s) _
  | csrRead n =>
    show AnswersWithin _ s (execCsrRead n s)
    delta execCsrRead
    cases csrOfNumber n with
    | none => exact answersWithin_raise _ _ s
    | some _ => exact answersWithin_done (unchangedExcept_refl _ s) _
  | rtuEncode | mbapFormat | mbapEncode =>
    delta exec execRtuEncode execMbapFormat execMbapEncode
    cases operandPdu s with
    | none => exact answersWithin_raise _ _ s
    | some pdu => exact answersWithin_done (unchangedExcept_iff.2 rfl) _
  | rtuDecode =>
    delta exec execRtuDecode
    cases rtuDecode (operandBytes s) with
    | err e => exact answersWithin_raise _ e s
    | ok addr pdu => exact answersWithin_done (setResult_frame pdu s) _
  | mbapParse =>
    delta exec execMbapParse
    cases mbapParse (operandBytes s) with
    | tooShort => exact answersWithin_respond (unchangedExcept_refl _ s) _ _
    | err e => exact answersWithin_raise _ e s
    | frame t u pdu => exact answersWithin_done (setResult_frame pdu s) _
  | csrWrite n v => exact execCsrWrite_frame n v s
  | rtuSend a => exact execRtuSend_frame a s
  | mbapPush b => exact execMbapPush_frame b s

/-! Inputs -/

theorem runCommand_ok {w : CommandWord} {i : Instr} (h : decode w = .ok i) (s : State) :
    runCommand w s = exec i s := by
  delta runCommand
  rw [h]

theorem runCommand_error {w : CommandWord} {e : DecodeError} (h : decode w = .error e) (s : State) :
    runCommand w s = raise .invalidValue s := by
  delta runCommand
  rw [h]

theorem inputWrites_ok {w : CommandWord} {i : Instr} (h : decode w = .ok i) :
    inputWrites (.command w) = .resp :: commandWrites i := by
  delta inputWrites
  simp only [h]

theorem inputWrites_error {w : CommandWord} {e : DecodeError} (h : decode w = .error e) :
    inputWrites (.command w) = [.resp] := by
  delta inputWrites
  simp only [h]

theorem runCommand_frame {w : CommandWord} {s t : State} (h : runCommand w s = .next t) :
    UnchangedExcept (inputWrites (.command w)) s t := by
  cases hd : decode w with
  | error e =>
    rw [inputWrites_error hd]
    exact answersWithin_raise [] .invalidValue s t ((runCommand_error hd s).symm.trans h)
  | ok i =>
    rw [inputWrites_ok hd]
    exact exec_frame i s t ((runCommand_ok hd s).symm.trans h)

/-- Every input changes no field but those its rule writes. -/
theorem takeInput_frame {a : Input} {s t : State} (h : takeInput a s = .next t) : UnchangedExcept (inputWrites a) s t := by
  cases a with
  | command w => exact runCommand_frame h
  | lineRx b => cases h; exact lineRx_frame b s
  | tick => cases h; exact tick_frame s

/-- Settles O51: the frame of each input, and with it every byte of the buffers it does not write. -/
theorem inputsWriteOnlyTheirFields : Obligations.InputsWriteOnlyTheirFields := by
  intro s a t h
  have hframe := takeInput_frame h
  exact ⟨hframe, fun b i hb => readByte_of_same (hframe (bufferField b) hb) i⟩

end Sys2Proof.Machine
end

section
/-! SUPPORT. The records of the block's outputs, `resp` and `lineTx`, are written and never read (log 2): a state with older
records behind its own takes every input as the state without them does. -/

namespace Sys2Proof.Machine

-- Bodies are elaborated in order and not as parallel tasks: the joined text is compiled close to its memory limit.
set_option deprecated.oldSectionVars true

/-- `s` with `r` and `l` as what the ports had shown before the records of `s` begin. -/
def withEarlier (r : Option Response) (l : List (List Byte)) (s : State) : State :=
  { s with resp := s.resp.or r, lineTx := l ++ s.lineTx }

/-- The same for the state that a result answers. -/
def Result.withEarlier (r : Option Response) (l : List (List Byte)) : Result → Result
  | .next s => .next (Machine.withEarlier r l s)
  | .fault f => .fault f
  | .refused e => .refused e

/-- `s` with nothing recorded yet. -/
def withoutRecords (s : State) : State := { s with resp := none, lineTx := [] }

/-- A state is its records and the rest. -/
theorem withEarlier_withoutRecords (s : State) : withEarlier s.resp s.lineTx (withoutRecords s) = s := by
  show { s with lineTx := s.lineTx ++ [] } = s
  rw [List.append_nil]

/-- States that differ only in the records are the same without them. -/
theorem withoutRecords_congr {s s' : State} (h : UnchangedExcept [.resp, .lineTx] s s') :
    withoutRecords s' = withoutRecords s := by
  rw [← unchangedExcept_iff.1 h]
  rfl

theorem withEarlier_frame (r r' : Option Response) (l l' : List (List Byte)) (s : State) :
    UnchangedExcept [.resp, .lineTx] (withEarlier r l s) (withEarlier r' l' s) :=
  unchangedExcept_iff.2 rfl

section
variable (r : Option Response) (l : List (List Byte)) (s : State)

/-! What the operations read -/

theorem operandBytes_withEarlier : operandBytes (withEarlier r l s) = operandBytes s := rfl

theorem operandPdu_withEarlier : operandPdu (withEarlier r l s) = operandPdu s := rfl

theorem accumulated_withEarlier : accumulated (withEarlier r l s) = accumulated s := rfl

theorem readByte_withEarlier (b : Buffer) (i : Nat) : readByte b i (withEarlier r l s) = readByte b i s := by
  cases b <;> rfl

theorem csrValue_withEarlier (c : Csr) : csrValue c (withEarlier r l s) = csrValue c s := by
  cases c <;> rfl

/-! Operations on the state -/

theorem emit_withEarlier : emit (withEarlier r l s) = withEarlier r l (emit s) := by
  cases h : s.armAwait with
  | false =>
    rw [emit_unarmed h, emit_unarmed (s := withEarlier r l s) h]
    delta withEarlier
    simp only [List.append_assoc]
  | true =>
    rw [emit_armed h, emit_armed (s := withEarlier r l s) h]
    delta withEarlier
    simp only [List.append_assoc]

theorem csrStore_withEarlier (c : Csr) (v : Word) :
    csrStore c v (withEarlier r l s) = (csrStore c v s).map (withEarlier r l) := by
  cases c <;> rfl

theorem endOfFrame_withEarlier : endOfFrame (withEarlier r l s) = withEarlier r l (endOfFrame s) := by
  simp only [endOfFrame, accumulated_withEarlier]
  cases accumulated s with
  | err e => rfl
  | ok addr pdu =>
    simp only [slaveFilter, apply_ite (withEarlier r l)]
    rfl

theorem tickReceive_withEarlier : tickReceive (withEarlier r l s) = withEarlier r l (tickReceive s) := by
  simp only [tickReceive, responseWait, endOfFrame_withEarlier, apply_ite (withEarlier r l)]
  rfl

theorem tickTransmit_withEarlier : tickTransmit (withEarlier r l s) = withEarlier r l (tickTransmit s) := by
  simp only [tickTransmit, emit_withEarlier, apply_ite (withEarlier r l)]
  rfl

theorem tick_withEarlier : tick (withEarlier r l s) = withEarlier r l (tick s) := by
  have hcount : { withEarlier r l s with silence := satInc32 (withEarlier r l s).silence } =
      withEarlier r l { s with silence := satInc32 s.silence } := rfl
  simp only [tick, hcount, tickReceive_withEarlier, tickTransmit_withEarlier]

theorem lineRx_withEarlier (b : Byte) : lineRx b (withEarlier r l s) = withEarlier r l (lineRx b s) := by
  simp only [lineRx, apply_ite (withEarlier r l)]
  rfl

theorem sendOrWait_withEarlier : sendOrWait (withEarlier r l s) = withEarlier r l (sendOrWait s) := by
  delta sendOrWait
  rw [emit_withEarlier, apply_ite (withEarlier r l)]
  rfl

/-! Commands -/

theorem raise_withEarlier (st : Status) : raise st (withEarlier r l s) = Result.withEarlier r l (raise st s) := rfl

theorem execCsrWrite_withEarlier (n : Byte) (v : Word) :
    execCsrWrite n v (withEarlier r l s) = (execCsrWrite n v s).withEarlier r l := by
  delta execCsrWrite
  cases csrOfNumber n with
  | none => rfl
  | some c =>
    rw [Option.bind_some, Option.bind_some, csrStore_withEarlier]
    cases csrStore c v s <;> rfl

theorem execRtuSend_withEarlier (a : Byte) :
    execRtuSend a (withEarlier r l s) = (execRtuSend a s).withEarlier r l := by
  delta execRtuSend
  rw [operandPdu_withEarlier]
  cases operandPdu s with
  | none =>
    simp only [apply_ite (Result.withEarlier r l)]
    rfl
  | some pdu =>
    have hload : { withEarlier r l s with
          txf := rtuEncode a pdu, armAwait := decide ((withEarlier r l s).role = .master ∧ a ≠ 0) } =
        withEarlier r l { s with txf := rtuEncode a pdu, armAwait := decide (s.role = .master ∧ a ≠ 0) } := rfl
    simp only [hload, sendOrWait_withEarlier, apply_ite (Result.withEarlier r l)]
    rfl

theorem execMbapPush_withEarlier (b : Byte) :
    execMbapPush b (withEarlier r l s) = (execMbapPush b s).withEarlier r l := by
  have hmrx : (withEarlier r l s).mrx = s.mrx := rfl
  delta execMbapPush
  rw [hmrx, apply_ite (Result.withEarlier r l)]
  cases mbapParse (s.mrx ++ [b]) <;> rfl

/-- No command reads the records: each appends its answer and what it emits. -/
theorem exec_withEarlier (i : Instr) : exec i (withEarlier r l s) = Result.withEarlier r l (exec i s) := by
  cases i with
  | nop | softReset | opbClear | crcInit | crcByte | crcBuf | crcRead | mbapStreamClear => rfl
  | opbPush | startMaster | startSlave | rtuListen =>
    delta exec execOpbPush execStartMaster execStartSlave execRtuListen
    simp only [apply_ite (Result.withEarlier r l)]
    rfl
  | resRead k =>
    show execResRead k (withEarlier r l s) = Result.withEarlier r l (execResRead k s)
    delta execResRead
    rw [readByte_withEarlier]
    cases readByte .resb (operandIndex k) s <;> rfl
  | rxfRead k =>
    show execRxfRead k (withEarlier r l s) = Result.withEarlier r l (execRxfRead k s)
    delta execRxfRead
    rw [readByte_withEarlier]
    cases readByte .rxf (operandIndex k) s <;> rfl
  | csrRead n =>
    show execCsrRead n (withEarlier r l s) = Result.withEarlier r l (execCsrRead n s)
    delta execCsrRead
    simp only [csrValue_withEarlier]
    cases csrOfNumber n <;> rfl
  | rtuEncode | mbapFormat | mbapEncode =>
    delta exec execRtuEncode execMbapFormat execMbapEncode
    rw [operandPdu_withEarlier]
    cases operandPdu s <;> rfl
  | rtuDecode =>
    delta exec execRtuDecode
    rw [operandBytes_withEarlier]
    cases rtuDecode (operandBytes s) <;> rfl
  | mbapParse =>
    delta exec execMbapParse
    rw [operandBytes_withEarlier]
    cases mbapParse (operandBytes s) <;> rfl
  | csrWrite n v => exact execCsrWrite_withEarlier r l s n v
  | rtuSend a => exact execRtuSend_withEarlier r l s a
  | mbapPush b => exact execMbapPush_withEarlier r l s b

/-! Inputs -/

/-- No input reads the records. -/
theorem takeInput_withEarlier (a : Input) :
    takeInput a (withEarlier r l s) = Result.withEarlier r l (takeInput a s) := by
  cases a with
  | command w =>
    show runCommand w (withEarlier r l s) = Result.withEarlier r l (runCommand w s)
    cases hd : decode w with
    | error e => rw [runCommand_error hd, runCommand_error hd, raise_withEarlier]
    | ok i => rw [runCommand_ok hd, runCommand_ok hd, exec_withEarlier]
  | lineRx b => exact congrArg Host.Outcome.next (lineRx_withEarlier r l s b)
  | tick => exact congrArg Host.Outcome.next (tick_withEarlier r l s)

end

/-- An input is taken by the state without its records, and the records stand before what it adds to them. -/
theorem takeInput_eq_withEarlier (a : Input) (s : State) :
    takeInput a s = Result.withEarlier s.resp s.lineTx (takeInput a (withoutRecords s)) := by
  rw [← takeInput_withEarlier, withEarlier_withoutRecords]

/-- Settles O56: both states step as their common part without the records does, each behind its own records. -/
theorem outputRecordsAreNeverRead : Obligations.OutputRecordsAreNeverRead := by
  intro s s' a t hsame h
  rw [takeInput_eq_withEarlier] at h
  rw [takeInput_eq_withEarlier a s', withoutRecords_congr hsame]
  generalize takeInput a (withoutRecords s) = result at h ⊢
  cases result with
  | next u =>
    cases h
    have hresp : u.resp.or s.resp = u.resp.or s'.resp ∨ (u.resp.or s.resp = s.resp ∧ u.resp.or s'.resp = s'.resp) := by
      cases u.resp with
      | none => exact .inr ⟨rfl, rfl⟩
      | some answer => exact .inl rfl
    exact ⟨_, u.lineTx, rfl, withEarlier_frame s.resp s'.resp s.lineTx s'.lineTx u, rfl, rfl, hresp⟩
  | fault | refused => cases h

end Sys2Proof.Machine
end

section
/-! SUPPORT. The equations of a step by the next input (spec/60_exceptions.md R255, R265), and the reset state (R51). -/

namespace Sys2Proof.Machine

/-- The next input is taken at the state without it (R76). -/
theorem step_of_inputs_cons {s : State} {a : Input} {rest : List Input} (h : s.inputs = a :: rest) :
    step s = takeInput a { s with inputs := rest } := by
  delta step
  rw [h]

theorem step_of_inputs_nil {s : State} (h : s.inputs = []) : step s = .next s := by
  delta step
  rw [h]
  rfl

/-- Settles O6: the three cases of the next input that are no command. -/
theorem stepTakesEventsOrNothing : Obligations.StepTakesEventsOrNothing :=
  ⟨fun _ _ _ h => step_of_inputs_cons h, fun _ _ h => step_of_inputs_cons h, fun _ h => step_of_inputs_nil h⟩

/-- Settles O11: legality of the parameters is what the invariant asks of the timers. -/
theorem resetMeetsInvariant : Obligations.ResetMeetsInvariant :=
  ⟨fun _ hp => machineInv_resetWith hp, machineInv_resetWith params_legal⟩

@[simp] theorem bufferBytes_resetWith (b : Buffer) (p : Params) : bufferBytes b (State.resetWith p) = [] := by
  cases b <;> rfl

/-- Every buffer is empty after reset, so no index has a byte (R51, R67). -/
@[simp] theorem readByte_resetWith (b : Buffer) (i : Nat) (p : Params) : readByte b i (State.resetWith p) = none :=
  readByte_ge (by simp)

@[simp] theorem irq_resetWith (p : Params) : irq (State.resetWith p) = false := by simp [irq]

/-- Settles O12: the fields by their reset laws, then the code of `NONE`, `irq` and the unreadable buffers. -/
theorem resetValues : Obligations.ResetValues :=
  ⟨reset_eq, fun p => by simp [statusCode]⟩

end Sys2Proof.Machine
end

section
/-! SUPPORT. A run of `MBAP_ENCODE`s over one loaded PDU (spec/43_mbap.md R194, R198), and the ids it returns
(20_memory.md R78). -/

namespace Sys2Proof.Machine

/-- A run goes on at the state its first command leaves. -/
theorem execAll_cons_of_next {i : Instr} {rest : List Instr} {s t : State} (h : exec i s = .next t) :
    execAll (i :: rest) s = execAll rest t := by
  rw [execAll, h]

/-- `MBAP_ENCODE` on a loaded PDU returns the counter, leaves it one higher and keeps the PDU (R194, R198). -/
theorem exec_mbapEncode_of_pduLoaded {s : State} (h : PduLoaded s) (u : Byte) :
    ∃ t, exec (.mbapEncode u) s = .next t ∧ t.resp = some ⟨.ok, s.txn.setWidth 32⟩ ∧ t.txn = s.txn + 1 ∧
      t.opb = s.opb := by
  refine ⟨respond .ok (s.txn.setWidth 32) (setResult (mbapFormat s.txn u s.opb) { s with txn := s.txn + 1 }),
    ?_, rfl, rfl, rfl⟩
  change execMbapEncode u s = _
  delta execMbapEncode
  rw [operandPdu_some h]
  rfl

/-- The run returns, at its last command, the counter's first value plus the number of encodes before it: each encode
leaves the PDU loaded and the counter one higher. -/
theorem execAll_mbapEncodes_resp (us : List Byte) (u : Byte) {s : State} (h : PduLoaded s) :
    ∃ t, execAll (us.map Instr.mbapEncode ++ [Instr.mbapEncode u]) s = .next t ∧
      t.resp = some ⟨.ok, (s.txn + BitVec.ofNat 16 us.length).setWidth 32⟩ ∧ t.opb = s.opb := by
  induction us generalizing s with
  | nil =>
    obtain ⟨t, hexec, hresp, -, hopb⟩ := exec_mbapEncode_of_pduLoaded h u
    exact ⟨t, execAll_cons_of_next hexec, by simpa using hresp, hopb⟩
  | cons v us ih =>
    obtain ⟨t, hexec, -, htxn, hopb⟩ := exec_mbapEncode_of_pduLoaded h v
    obtain ⟨t', hrun, hresp, hopb'⟩ := ih (s := t) (by rwa [PduLoaded, hopb])
    have hcount : s.txn + 1 + BitVec.ofNat 16 us.length = s.txn + BitVec.ofNat 16 (us.length + 1) := by
      rw [BitVec.add_assoc, BitVec.add_comm 1, BitVec.ofNat_add]
      rfl
    refine ⟨t', (execAll_cons_of_next hexec).trans hrun, ?_, hopb'.trans hopb⟩
    rw [hresp, htxn, hcount, List.length_cons]

/-- An id returned as a word determines how far, below 2^16, the counter stands past its start. -/
theorem txnWord_offset_injective {x : Half} {i j : Nat} (hi : i < 65536) (hj : j < 65536)
    (h : (x + BitVec.ofNat 16 i).setWidth 32 = (x + BitVec.ofNat 16 j).setWidth 32) : i = j := by
  have hid : x + BitVec.ofNat 16 i = x + BitVec.ofNat 16 j := by
    simpa using congrArg txnOperand h
  have hoff : BitVec.ofNat 16 i = BitVec.ofNat 16 j := (BitVec.add_right_inj x).1 hid
  simpa [Nat.mod_eq_of_lt hi, Nat.mod_eq_of_lt hj] using congrArg BitVec.toNat hoff

/-- Settles O50: the ids of a run count up from the counter's first value, and 65536 of them in a row differ. -/
theorem encodesGetDistinctIds : Obligations.EncodesGetDistinctIds :=
  fun _ h => ⟨fun us u => execAll_mbapEncodes_resp us u h,
    fun _ _ hi hj hne heq => hne (txnWord_offset_injective hi hj heq)⟩

end Sys2Proof.Machine
end
